-- ==== Sys2Proof/Word.lean ====
section
/-! DEFINITION. The word types of FSE (spec/00_scope.md R7, R9): bytes of the stream, 32-bit bus words and counters, 64-bit bins. -/

namespace Sys2Proof

/-- One byte of the stream, a u8 (R9, IN_W = 8). -/
abbrev Byte := BitVec 8

/-- One 32-bit bus word, counter or wire integer, a u32 (R9, DATA_W = CNT_W = SEQ_W = 32). -/
abbrev Word := BitVec 32

/-- One 64-bit bin word, a u64 (R9, BIN_FMT = IEEE 754 binary64). -/
abbrev Word64 := BitVec 64

end Sys2Proof
end

