-- ==== Sys2Proof/Syntax.lean ====
section
/-! DEFINITION. The operations of FSE, one constructor for each row of spec/opcode_table.json, and what the ports present: the ingress beat, the bus access, the framer's header window, the turns of the interleaving. -/

namespace Sys2Proof

/-- The agents that take steps (spec/10_state.md R47, spec/60_exceptions.md R219). -/
inductive Agent where
  /-- the byte source's side of the ingress port -/
  | ing
  /-- the framer -/
  | frm
  /-- the spectrum engine -/
  | xf
  /-- the host bus master -/
  | host
  /-- the reset source -/
  | rst
  deriving DecidableEq, Repr, Inhabited

/-- The capture sink's answer to one message (spec/30_encoding.md R81). -/
inductive CapResp where
  | ok
  | fail
  deriving DecidableEq, Repr, Inhabited

/-- One turn of the interleaving: the agent that may take its step, and the levels the capture
sink's pins show during it (R47; spec/41_framer.md R116: the response is a draw under no law). -/
structure Turn where
  agent : Agent
  capReady : Bool
  capResp : CapResp
  deriving DecidableEq, Repr, Inhabited

/-- One host bus access as the bus carries it (spec/30_encoding.md R80, spec/43_host_bus.md R180).
`sel` is the selector T = (bus_we, bus_addr[18:0]); `lanesOff` has a 1 for each byte enable that
is clear, so 0 is a full 32-bit access. -/
structure BusAccess where
  sel : BitVec 20
  wdata : Word
  lanesOff : BitVec 4
  deriving DecidableEq, Repr

/-- What selects an operation, as bits (spec/30_encoding.md R84): an ingress beat
B = (in_kind, in_data) (R78), a bus access (R80), the framer's view of BUF, which is |BUF| and the
header window W (R77, R83), a busy engine, an asserted reset. -/
inductive PortWord where
  | beat (b : BitVec 10)
  | access (a : BusAccess)
  | window (level : Nat) (w : BitVec 64)
  | engine
  | rst
  deriving DecidableEq, Repr

/-- What the framer's decision reads beside BUF: the registers MAGIC and MAX_PAYLOAD
(spec/10_state.md R26). -/
structure FrameCtx where
  magic : Word
  maxPayload : Word
  deriving DecidableEq, Repr

/-- The 38 operations of spec/opcode_table.json, in the table's order. -/
inductive Instr where
  /-- IN_DATA (R100): one stream byte. -/
  | inData (data : Byte)
  /-- IN_EOS (R101): orderly close; the beat's in_data is ignored. -/
  | inEos (data : Byte)
  /-- IN_ERR (R102): read failure; the beat's in_data is ignored. -/
  | inErr (data : Byte)
  /-- FR_WAIT_HDR (R112): fewer than 8 bytes buffered. -/
  | frWaitHdr
  /-- FR_DROP1 (R113): magic mismatch, one byte dropped. -/
  | frDrop1
  /-- FR_DROP4 (R114): length above the ceiling, the 4 magic bytes dropped. -/
  | frDrop4 (len : Word)
  /-- FR_WAIT_PAY (R115): valid header, payload incomplete. -/
  | frWaitPay (len : Word)
  /-- FR_EMIT (R116): complete valid frame at the head. -/
  | frEmit (len : Word)
  /-- XF_DONE (R135): transform and publish the payload in XF_IN. -/
  | xfDone
  /-- RD_CTRL (R151). -/
  | rdCtrl
  /-- WR_CTRL (R152), with the actions RESTART, SNAP and CLR_CNT (R153 to R155). -/
  | wrCtrl (v : Word)
  /-- RD_STATUS (R156). -/
  | rdStatus
  /-- RD_EVENTS (R157). -/
  | rdEvents
  /-- WR_EVENTS (R158). -/
  | wrEvents (v : Word)
  /-- RD_IRQ_EN (R159). -/
  | rdIrqEn
  /-- WR_IRQ_EN (R160). -/
  | wrIrqEn (v : Word)
  /-- RD_MAGIC (R161). -/
  | rdMagic
  /-- RD_MAX_PAYLOAD (R162). -/
  | rdMaxPayload
  /-- WR_MAX_PAYLOAD (R163). -/
  | wrMaxPayload (v : Word)
  /-- RD_BUF_LEVEL (R164). -/
  | rdBufLevel
  /-- RD_PUB_SEQ (R166). -/
  | rdPubSeq
  /-- RD_PUB_NBINS (R167). -/
  | rdPubNbins
  /-- RD_VIEW_SEQ (R168). -/
  | rdViewSeq
  /-- RD_VIEW_NBINS (R169). -/
  | rdViewNbins
  /-- RD_BYTES_IN (R170). -/
  | rdBytesIn
  /-- RD_RESYNC_DROPS (R171). -/
  | rdResyncDrops
  /-- RD_LEN_REJECTS (R172). -/
  | rdLenRejects
  /-- RD_FRAMES_OK (R173). -/
  | rdFramesOk
  /-- RD_DISCARDED (R174). -/
  | rdDiscarded
  /-- RD_CAP_ERRS (R175). -/
  | rdCapErrs
  /-- RD_SPECTRA (R176). -/
  | rdSpectra
  /-- RD_ODD_TRUNC (R177). -/
  | rdOddTrunc
  /-- RD_BIN (R165): bin k of VIEW, `high` = T[2] selects bits 63:32. -/
  | rdBin (k : BitVec 15) (high : Bool)
  /-- WR_RO (R178): a write to a read-only register or the bin window. -/
  | wrRo (addr : BitVec 19) (v : Word)
  /-- RD_RSVD (R179): a read of a reserved offset. -/
  | rdRsvd (addr : BitVec 19)
  /-- WR_RSVD (R179): a write to a reserved offset. -/
  | wrRsvd (addr : BitVec 19) (v : Word)
  /-- BUS_BAD (R180): a misaligned or partial access. -/
  | busBad (sel : BitVec 20) (v : Word) (lanesOff : BitVec 4)
  /-- RESET (R230). -/
  | reset
  deriving DecidableEq, Repr

end Sys2Proof
end

