-- ==== Sys2Proof/Machine/Numerics.lean ====
section
/-! DEFINITION. The engine's numbers (spec/42_transform.md R131 to R134): samples, the number a binary64 word names, the exact bin value D[k] as a predicate, and the two bounds that show a legal engine exists. -/

namespace Sys2Proof

/-- One complex sample with integer parts (spec/42_transform.md R131). -/
structure Sample where
  re : Int
  im : Int
  deriving DecidableEq, Repr

/-- Both parts of the sample lie in -128..127 (R131). -/
def Sample.InRange (x : Sample) : Prop :=
  -128 ≤ x.re ∧ x.re ≤ 127 ∧ -128 ≤ x.im ∧ x.im ≤ 127

/-! ### Numbers named by binary64 words and the exact bin value -/

/-- The word is a finite binary64: its biased exponent, bits 62:52, is not all ones
(spec/30_encoding.md R82 gives the layout; the meaning of the fields is IEEE 754's, log 19). -/
def finite64 (w : Word64) : Bool := w.extractLsb' 52 11 != 0x7FF#11

/-- The number a finite binary64 word names: sign bit 63, biased exponent bits 62:52, fraction
bits 51:0 (R82; PRESUMED: IEEE 754's reading of the fields, log 19). -/
def value64 (w : Word64) : ℚ :=
  let e := (w.extractLsb' 52 11).toNat
  let f := (w.extractLsb' 0 52).toNat
  let m : ℚ := if e = 0 then (f : ℚ) / 2 ^ 1074 else ((2 ^ 52 + f : ℕ) : ℚ) * 2 ^ ((e : ℤ) - 1075)
  if w.msb then -m else m

/-- `w` is a binary64 word nearest to the real `r` (spec/42_transform.md R134 P2). -/
def IsNearest64 (w : Word64) (r : ℝ) : Prop :=
  finite64 w = true ∧ ∀ v : Word64, finite64 v = true → |(value64 w : ℝ) - r| ≤ |(value64 v : ℝ) - r|

/-- `d` is the exact bin value D[k] = 20·log10(|X[k]| + EPS), where X[k] is the unnormalised
forward DFT of the sample vector in natural order (spec/42_transform.md R132, R133, DFT_SCALE = 1). -/
def IsExactDb (eps : ℝ) (x : List Sample) (k : Nat) (d : ℝ) : Prop :=
  d = 20 * Real.logb 10
    (‖∑ n ∈ Finset.range x.length,
        (((x.getD n ⟨0, 0⟩).re : ℂ) + Complex.I * ((x.getD n ⟨0, 0⟩).im : ℂ)) *
          Complex.exp (((-2 * Real.pi * k * n / x.length : ℝ) : ℂ) * Complex.I)‖
      + eps)

theorem dftSum_norm_le (x : List Sample) (hx : ∀ s ∈ x, s.InRange) (k : Nat) :
    ‖∑ n ∈ Finset.range x.length,
        (((x.getD n ⟨0, 0⟩).re : ℂ) + Complex.I * ((x.getD n ⟨0, 0⟩).im : ℂ)) *
          Complex.exp (((-2 * Real.pi * k * n / x.length : ℝ) : ℂ) * Complex.I)‖ ≤ 256 * x.length := by
  refine (norm_sum_le _ _).trans ?_
  have hterm : ∀ n ∈ Finset.range x.length,
      ‖(((x.getD n ⟨0, 0⟩).re : ℂ) + Complex.I * ((x.getD n ⟨0, 0⟩).im : ℂ)) *
          Complex.exp (((-2 * Real.pi * k * n / x.length : ℝ) : ℂ) * Complex.I)‖ ≤ 256 := by
    intro n hn
    have hn' : n < x.length := Finset.mem_range.1 hn
    obtain ⟨h1, h2, h3, h4⟩ := hx (x.getD n ⟨0, 0⟩) (by simp [List.getD, hn'])
    rw [norm_mul, Complex.norm_exp_ofReal_mul_I, mul_one]
    refine (norm_add_le _ _).trans ?_
    rw [norm_mul, Complex.norm_I, one_mul, Complex.norm_intCast, Complex.norm_intCast]
    have hr : |((x.getD n ⟨0, 0⟩).re : ℝ)| ≤ 128 := by
      rw [abs_le]; constructor <;> norm_cast; omega
    have hi : |((x.getD n ⟨0, 0⟩).im : ℝ)| ≤ 128 := by
      rw [abs_le]; constructor <;> norm_cast; omega
    linarith
  refine (Finset.sum_le_sum hterm).trans ?_
  simp [mul_comm]

/-- A legal engine exists: the word +0.0 for every bin is within a (large) tolerance of D[k]. -/
theorem zeroEngine_accurate (eps : ℝ) (x : List Sample) (k : Nat) (d : ℝ) (he : 0 < eps)
    (hl : x.length ≤ 32768) (hx : ∀ s ∈ x, s.InRange) (h : IsExactDb eps x k d) :
    |((value64 0#64 : ℚ) : ℝ) - d| ≤ 20 * (8388608 + eps + eps⁻¹) := by
  have h0 : value64 0#64 = 0 := by
    have h1 : ((0#64).extractLsb' 52 11).toNat = 0 := by decide
    have h2 : ((0#64).extractLsb' 0 52).toNat = 0 := by decide
    simp [value64]
  obtain ⟨a, ha0, ha, h⟩ : ∃ a : ℝ, 0 ≤ a ∧ a ≤ 256 * x.length ∧ d = 20 * Real.logb 10 (a + eps) :=
    ⟨_, norm_nonneg _, dftSum_norm_le x hx k, h⟩
  have hl' : (x.length : ℝ) ≤ 32768 := by exact_mod_cast hl
  have hinv : 0 < eps⁻¹ := inv_pos.2 he
  have hlog10 : (1 : ℝ) ≤ Real.log 10 := by
    rw [Real.le_log_iff_exp_le (by norm_num)]
    exact Real.exp_one_lt_d9.le.trans (by norm_num)
  have hy : 0 < a + eps := by positivity
  have hup := Real.log_le_sub_one_of_pos hy
  have hlo := Real.log_le_sub_one_of_pos (inv_pos.2 hy)
  rw [Real.log_inv] at hlo
  have hyi : (a + eps)⁻¹ ≤ eps⁻¹ := inv_anti₀ he (by linarith)
  have hbound : |Real.log (a + eps)| ≤ 8388608 + eps + eps⁻¹ := by
    rw [abs_le]; constructor <;> linarith
  have hlb : |Real.logb 10 (a + eps)| ≤ 8388608 + eps + eps⁻¹ := by
    rw [Real.logb, abs_div, abs_of_pos (by linarith : (0 : ℝ) < Real.log 10)]
    exact (div_le_self (abs_nonneg _) hlog10).trans hbound
  rw [h0, h, Rat.cast_zero, zero_sub, abs_neg, abs_mul, abs_of_pos (by norm_num : (0 : ℝ) < 20)]
  linarith

end Sys2Proof
end

