-- ==== Sys2Proof/Config.lean ====
section
/-! DEFINITION. What an implementation of FSE fixes (spec/00_scope.md R7, R8) and the free values: the build parameters with their defaults, the fixed sizes, the engine's numerics function with its promised properties (spec/42_transform.md R134), and the turns of an interleaving that no schedule names. -/

namespace Sys2Proof

/-- HDR_LEN, the frame header's length in bytes (R7, fixed). -/
def Config.hdrLen : Nat := 8

/-- A positive real with its reciprocal, which is what an EPS outside the rationals is given by. -/
structure Config.PositiveReal where
  val : ℝ := 1
  recip : ℝ := 1
  val_pos : 0 < val := by norm_num
  val_mul_recip : val * recip = 1 := by norm_num
  deriving Inhabited

/-- The positive reals a build may be given as EPS beside the ratios, one for each name.
Free values: nothing is known of them but that they are positive (R7, R8, log 2). -/
opaque Config.givenEps : Nat → Config.PositiveReal

/-- The parameter EPS, any positive real (R7): a ratio of naturals, written out, or a real the build
is given, under a name. State stays plain data; the number itself stands in Config. -/
inductive Eps where
  | ratio (num den : Nat)
  | given (name : Nat)
  deriving DecidableEq, Repr

/-- The real number EPS is. -/
def Eps.value : Eps → ℝ
  | .ratio num den => (((num : ℚ) / (den : ℚ) : ℚ) : ℝ)
  | .given name => (Config.givenEps name).val

/-- Its reciprocal. -/
def Eps.recip : Eps → ℝ
  | .ratio num den => (((den : ℚ) / (num : ℚ) : ℚ) : ℝ)
  | .given name => (Config.givenEps name).recip

theorem Eps.recip_eq_inv (e : Eps) : e.recip = e.value⁻¹ := by
  cases e with
  | ratio num den => simp [Eps.recip, Eps.value]
  | given name => exact eq_inv_of_mul_eq_one_right (Config.givenEps name).val_mul_recip

theorem Eps.given_pos (name : Nat) : 0 < (Eps.given name).value := (Config.givenEps name).val_pos

/-- The build parameters of R7 that are not fixed: MAGIC, MAX_PAYLOAD_HW, EPS, and the word that
P2 of R134 fixes from EPS. The defaults are R7's. -/
structure Params where
  magic : Word := 0x53505244#32
  maxPayloadHw : Word := 65536#32
  eps : Eps := .ratio 1 1000000
  epsWord : Word64 := 0xC05E000000000000#64
  deriving DecidableEq, Repr

/-- BUF_CAP = HDR_LEN + MAX_PAYLOAD_HW (R7, spec/10_state.md R44). -/
def Params.bufCap (p : Params) : Nat := Config.hdrLen + p.maxPayloadHw.toNat

/-- MAX_BINS = floor(MAX_PAYLOAD_HW / 2) (R7). -/
def Params.maxBins (p : Params) : Nat := p.maxPayloadHw.toNat / 2

/-- The parameter constraints of R8, and P2's demand on the word of an all-zero vector. -/
structure Params.Legal (p : Params) : Prop where
  maxPayloadHw_le : p.maxPayloadHw.toNat ≤ 65536
  eps_pos : 0 < p.eps.value
  epsWord_nearest : IsNearest64 p.epsWord (20 * Real.logb 10 p.eps.value)

/-- An engine of R134: the numerics function beyond the all-zero vector, with its tolerance TOL_DB
(OPEN: any positive real) and the properties P3 promises. P1 (determinism) is that `word` is a
function of EPS, the sample vector and k. Nothing else is promised. -/
structure Config.Engine where
  tolDb : Eps → ℝ := fun eps => 20 * (8388608 + max eps.value 0 + max eps.recip 0)
  word : Eps → List Sample → Nat → Word64 := fun _ _ _ => 0#64
  tolDb_pos : ∀ eps, 0 < tolDb eps := by
    intro eps
    have := le_max_right eps.value 0
    have := le_max_right eps.recip 0
    linarith
  finite : ∀ eps x k, finite64 (word eps x k) = true := by intro _ _ _; decide
  accurate : ∀ eps x k d, 0 < eps.value → x.length ≤ 32768 → (∀ s ∈ x, s.InRange) →
      k < x.length → IsExactDb eps.value x k d → |(value64 (word eps x k) : ℝ) - d| ≤ tolDb eps := by
    intro eps x k d he hl hx _ h
    have h1 := zeroEngine_accurate eps.value x k d he hl hx h
    rw [← Eps.recip_eq_inv] at h1
    have := le_max_left eps.value 0
    have := le_max_left eps.recip 0
    linarith
  deriving Inhabited

/-- The engine of this build: dbNum beyond the all-zero vector, and TOL_DB (R134, both OPEN).
A free value: nothing but the fields of `Config.Engine` is known of it (log 3). -/
opaque Config.engine : Config.Engine

/-- An endless interleaving that is fair to FSE's own agents: the framer's turn and the engine's
turn come again and again (spec/60_exceptions.md R223). Nothing is asked for the other agents. -/
structure Config.FairTurns where
  turn : Nat → Turn := fun n => ⟨if n % 2 = 0 then .frm else .xf, true, .ok⟩
  frm_recurs : ∀ n, ∃ m, n ≤ m ∧ (turn m).agent = .frm := by
    intro n; exact ⟨2 * n, by omega, by simp⟩
  xf_recurs : ∀ n, ∃ m, n ≤ m ∧ (turn m).agent = .xf := by
    intro n; exact ⟨2 * n + 1, by omega, by simp [show (2 * n + 1) % 2 = 1 by omega]⟩
  deriving Inhabited

/-- The interleaving beyond the schedule in State. A free value: any fair one (R47, R223, logs 4
and 21). -/
opaque Config.fairTurns : Config.FairTurns

/-- The turn taken when the schedule in State names none: any agent, any capture pins, under the
fairness of R223 alone. -/
def Config.freeTurn (n : Nat) : Turn := Config.fairTurns.turn n

end Sys2Proof
end

