-- ==== Sys2Proof/WellFormed.lean ====
section
/-! DEFINITION. Which operands an operation's encoding admits (spec/30_encoding.md R83, R84; spec/43_host_bus.md R178 to R180). -/

namespace Sys2Proof

/-- `addr` is a 32-bit aligned byte address (spec/20_memory.md R54). -/
def alignedAddr (addr : BitVec 19) : Bool := addr.toNat % 4 == 0

/-- The read-only addresses of R178: STATUS, MAGIC, BUF_LEVEL, the seq and nbins registers, the
counters, the bin window. -/
def readOnlyAddr (addr : BitVec 19) : Bool :=
  alignedAddr addr &&
    (addr.toNat == 0x004 || addr.toNat == 0x010 || (0x018 ≤ addr.toNat && addr.toNat ≤ 0x028)
      || (0x030 ≤ addr.toNat && addr.toNat ≤ 0x04C) || 0x40000 ≤ addr.toNat)

/-- The reserved addresses of R179: 0x0002C and 0x00050..0x3FFFC. -/
def reservedAddr (addr : BitVec 19) : Bool :=
  alignedAddr addr && (addr.toNat == 0x02C || (0x050 ≤ addr.toNat && addr.toNat ≤ 0x3FFFC))

/-- The operands of `i` are ones its encoding admits. The framer's operations are judged against
MAGIC and MAX_PAYLOAD, because their rows of the decision map name these registers (R83). -/
def WellFormed (c : FrameCtx) : Instr → Bool
  | .inData _ | .inEos _ | .inErr _ | .frWaitHdr | .frDrop1 => true
  | .frDrop4 len => c.maxPayload.toNat < len.toNat
  | .frWaitPay len => 0 < len.toNat && len.toNat ≤ c.maxPayload.toNat
  | .frEmit len => len.toNat ≤ c.maxPayload.toNat
  | .xfDone | .rdCtrl | .wrCtrl _ | .rdStatus | .rdEvents | .wrEvents _ | .rdIrqEn | .wrIrqEn _
  | .rdMagic | .rdMaxPayload | .wrMaxPayload _ | .rdBufLevel | .rdPubSeq | .rdPubNbins
  | .rdViewSeq | .rdViewNbins | .rdBytesIn | .rdResyncDrops | .rdLenRejects | .rdFramesOk
  | .rdDiscarded | .rdCapErrs | .rdSpectra | .rdOddTrunc | .rdBin _ _ => true
  | .wrRo addr _ => readOnlyAddr addr
  | .rdRsvd addr => reservedAddr addr
  | .wrRsvd addr _ => reservedAddr addr
  | .busBad sel _ lanesOff => sel.toNat % 4 != 0 || lanesOff != 0#4
  | .reset => true

end Sys2Proof
end

