-- ==== Sys2Proof/Decode.lean ====
section
/-! DEFINITION. Decoding of what the ports present into operations, total on every bit pattern, and the encoder (spec/30_encoding.md R77 to R85, spec/opcode_table.json). -/

namespace Sys2Proof

/-- Why a pattern of bits names no operation. -/
inductive DecodeError where
  /-- An ingress beat with in_kind = 11 (spec/30_encoding.md R79). -/
  | reservedBeatKind (b : BitVec 10)
  deriving DecidableEq, Repr

/-- An ingress beat B = (in_kind[1:0], in_data[7:0]) (R78, R79). -/
def decodeBeat (b : BitVec 10) : Except DecodeError Instr :=
  match (b.extractLsb' 8 2).toNat with
  | 0 => .ok (.inData (b.extractLsb' 0 8))
  | 1 => .ok (.inEos (b.extractLsb' 0 8))
  | 2 => .ok (.inErr (b.extractLsb' 0 8))
  | _ => .error (.reservedBeatKind b)

/-- The framer's decision map, rows tried in order (R83). `level` is |BUF|, `w` the header window
W of R77: bits 31:0 the magic candidate, bits 63:32 the length candidate. -/
def decodeWindow (c : FrameCtx) (level : Nat) (w : BitVec 64) : Instr :=
  let magic : Word := w.extractLsb' 0 32
  let len : Word := w.extractLsb' 32 32
  if level < 8 then .frWaitHdr
  else if magic ≠ c.magic then .frDrop1
  else if len.toNat > c.maxPayload.toNat then .frDrop4 len
  else if level < 8 + len.toNat then .frWaitPay len
  else .frEmit len

/-- An aligned full read, selected by the offset (R84, spec/43_host_bus.md). -/
def decodeRead (addr : BitVec 19) : Instr :=
  if addr.getLsbD 18 then .rdBin (addr.extractLsb' 3 15) (addr.getLsbD 2)
  else match addr.toNat with
    | 0x000 => .rdCtrl
    | 0x004 => .rdStatus
    | 0x008 => .rdEvents
    | 0x00C => .rdIrqEn
    | 0x010 => .rdMagic
    | 0x014 => .rdMaxPayload
    | 0x018 => .rdBufLevel
    | 0x01C => .rdPubSeq
    | 0x020 => .rdPubNbins
    | 0x024 => .rdViewSeq
    | 0x028 => .rdViewNbins
    | 0x030 => .rdBytesIn
    | 0x034 => .rdResyncDrops
    | 0x038 => .rdLenRejects
    | 0x03C => .rdFramesOk
    | 0x040 => .rdDiscarded
    | 0x044 => .rdCapErrs
    | 0x048 => .rdSpectra
    | 0x04C => .rdOddTrunc
    | _ => .rdRsvd addr

/-- An aligned full write, selected by the offset (R84, spec/43_host_bus.md R178, R179). -/
def decodeWrite (addr : BitVec 19) (v : Word) : Instr :=
  if addr.getLsbD 18 then .wrRo addr v
  else match addr.toNat with
    | 0x000 => .wrCtrl v
    | 0x008 => .wrEvents v
    | 0x00C => .wrIrqEn v
    | 0x014 => .wrMaxPayload v
    | 0x004 | 0x010 | 0x018 | 0x01C | 0x020 | 0x024 | 0x028 => .wrRo addr v
    | 0x030 | 0x034 | 0x038 | 0x03C | 0x040 | 0x044 | 0x048 | 0x04C => .wrRo addr v
    | _ => .wrRsvd addr v

/-- A host bus access. A misaligned or partial one is BUS_BAD (spec/43_host_bus.md R180); every
other one is chosen by T alone (R80). -/
def decodeAccess (a : BusAccess) : Instr :=
  if a.sel.extractLsb' 0 2 ≠ 0#2 ∨ a.lanesOff ≠ 0#4 then .busBad a.sel a.wdata a.lanesOff
  else if a.sel.getLsbD 19 then decodeWrite (a.sel.extractLsb' 0 19) a.wdata
  else decodeRead (a.sel.extractLsb' 0 19)

/-- The operation a port's bits name (R84). -/
def decode (c : FrameCtx) : PortWord → Except DecodeError Instr
  | .beat b => decodeBeat b
  | .access a => .ok (decodeAccess a)
  | .window level w => .ok (decodeWindow c level w)
  | .engine => .ok .xfDone
  | .rst => .ok .reset

/-- A full read of byte address `addr`: T = (0, addr) (R80). -/
def readAccess (addr : BitVec 19) : BusAccess := ⟨0#1 ++ addr, 0#32, 0#4⟩

/-- A full write of `v` to byte address `addr`: T = (1, addr) (R80). -/
def writeAccess (addr : BitVec 19) (v : Word) : BusAccess := ⟨1#1 ++ addr, v, 0#4⟩

/-- The bits of an operation, written from the encoding tables (R78, R80, R83, R84). A framer
operation is shown by a BUF of the least length its row allows. -/
def encode (c : FrameCtx) : Instr → PortWord
  | .inData data => .beat (0b00#2 ++ data)
  | .inEos data => .beat (0b01#2 ++ data)
  | .inErr data => .beat (0b10#2 ++ data)
  | .frWaitHdr => .window 0 0#64
  | .frDrop1 => .window 8 (0#32 ++ ~~~c.magic)
  | .frDrop4 len => .window 8 (len ++ c.magic)
  | .frWaitPay len => .window 8 (len ++ c.magic)
  | .frEmit len => .window (8 + len.toNat) (len ++ c.magic)
  | .xfDone => .engine
  | .rdCtrl => .access (readAccess 0x000#19)
  | .wrCtrl v => .access (writeAccess 0x000#19 v)
  | .rdStatus => .access (readAccess 0x004#19)
  | .rdEvents => .access (readAccess 0x008#19)
  | .wrEvents v => .access (writeAccess 0x008#19 v)
  | .rdIrqEn => .access (readAccess 0x00C#19)
  | .wrIrqEn v => .access (writeAccess 0x00C#19 v)
  | .rdMagic => .access (readAccess 0x010#19)
  | .rdMaxPayload => .access (readAccess 0x014#19)
  | .wrMaxPayload v => .access (writeAccess 0x014#19 v)
  | .rdBufLevel => .access (readAccess 0x018#19)
  | .rdPubSeq => .access (readAccess 0x01C#19)
  | .rdPubNbins => .access (readAccess 0x020#19)
  | .rdViewSeq => .access (readAccess 0x024#19)
  | .rdViewNbins => .access (readAccess 0x028#19)
  | .rdBytesIn => .access (readAccess 0x030#19)
  | .rdResyncDrops => .access (readAccess 0x034#19)
  | .rdLenRejects => .access (readAccess 0x038#19)
  | .rdFramesOk => .access (readAccess 0x03C#19)
  | .rdDiscarded => .access (readAccess 0x040#19)
  | .rdCapErrs => .access (readAccess 0x044#19)
  | .rdSpectra => .access (readAccess 0x048#19)
  | .rdOddTrunc => .access (readAccess 0x04C#19)
  | .rdBin k high => .access (readAccess (1#1 ++ k ++ BitVec.ofBool high ++ 0#2))
  | .wrRo addr v => .access (writeAccess addr v)
  | .rdRsvd addr => .access (readAccess addr)
  | .wrRsvd addr v => .access (writeAccess addr v)
  | .busBad sel v lanesOff => .access ⟨sel, v, lanesOff⟩
  | .reset => .rst

/-! ### The opcode table's own patterns -/

/-- One match/mask pair of spec/opcode_table.json's bus rows: T selects the row when
`T &&& mask = pattern`. -/
structure BusPattern where
  mnemonic : String
  pattern : BitVec 20
  mask : BitVec 20
  deriving DecidableEq, Repr

/-- The table's mnemonic of a bus operation; the empty string for the others. -/
def busMnemonic : Instr → String
  | .rdCtrl => "RD_CTRL"
  | .wrCtrl _ => "WR_CTRL"
  | .rdStatus => "RD_STATUS"
  | .rdEvents => "RD_EVENTS"
  | .wrEvents _ => "WR_EVENTS"
  | .rdIrqEn => "RD_IRQ_EN"
  | .wrIrqEn _ => "WR_IRQ_EN"
  | .rdMagic => "RD_MAGIC"
  | .rdMaxPayload => "RD_MAX_PAYLOAD"
  | .wrMaxPayload _ => "WR_MAX_PAYLOAD"
  | .rdBufLevel => "RD_BUF_LEVEL"
  | .rdPubSeq => "RD_PUB_SEQ"
  | .rdPubNbins => "RD_PUB_NBINS"
  | .rdViewSeq => "RD_VIEW_SEQ"
  | .rdViewNbins => "RD_VIEW_NBINS"
  | .rdBytesIn => "RD_BYTES_IN"
  | .rdResyncDrops => "RD_RESYNC_DROPS"
  | .rdLenRejects => "RD_LEN_REJECTS"
  | .rdFramesOk => "RD_FRAMES_OK"
  | .rdDiscarded => "RD_DISCARDED"
  | .rdCapErrs => "RD_CAP_ERRS"
  | .rdSpectra => "RD_SPECTRA"
  | .rdOddTrunc => "RD_ODD_TRUNC"
  | .rdBin _ _ => "RD_BIN"
  | .wrRo _ _ => "WR_RO"
  | .rdRsvd _ => "RD_RSVD"
  | .wrRsvd _ _ => "WR_RSVD"
  | .busBad _ _ _ => "BUS_BAD"
  | .inData _ | .inEos _ | .inErr _ | .frWaitHdr | .frDrop1 | .frDrop4 _ | .frWaitPay _ | .frEmit _
  | .xfDone | .reset => ""

/-- The single-offset rows of the table. -/
def busExactRows : List BusPattern :=
  ([("RD_CTRL", 0x00000#20), ("WR_CTRL", 0x80000#20), ("RD_STATUS", 0x00004#20),
    ("RD_EVENTS", 0x00008#20), ("WR_EVENTS", 0x80008#20), ("RD_IRQ_EN", 0x0000C#20),
    ("WR_IRQ_EN", 0x8000C#20), ("RD_MAGIC", 0x00010#20), ("RD_MAX_PAYLOAD", 0x00014#20),
    ("WR_MAX_PAYLOAD", 0x80014#20), ("RD_BUF_LEVEL", 0x00018#20), ("RD_PUB_SEQ", 0x0001C#20),
    ("RD_PUB_NBINS", 0x00020#20), ("RD_VIEW_SEQ", 0x00024#20), ("RD_VIEW_NBINS", 0x00028#20),
    ("RD_BYTES_IN", 0x00030#20), ("RD_RESYNC_DROPS", 0x00034#20), ("RD_LEN_REJECTS", 0x00038#20),
    ("RD_FRAMES_OK", 0x0003C#20), ("RD_DISCARDED", 0x00040#20), ("RD_CAP_ERRS", 0x00044#20),
    ("RD_SPECTRA", 0x00048#20), ("RD_ODD_TRUNC", 0x0004C#20)] : List (String × BitVec 20)).map
    fun r => ⟨r.1, r.2, 0xFFFFF#20⟩

/-- The reserved blocks of R179 as the table gives them, for the selector's top bit `we`. -/
def busReservedRows (mnemonic : String) (we : BitVec 20) : List BusPattern :=
  ([(0x0002C#20, 0xFFFFF#20), (0x00050#20, 0xFFFF3#20), (0x00060#20, 0xFFFE3#20),
    (0x00080#20, 0xFFF83#20), (0x00100#20, 0xFFF03#20), (0x00200#20, 0xFFE03#20),
    (0x00400#20, 0xFFC03#20), (0x00800#20, 0xFF803#20), (0x01000#20, 0xFF003#20),
    (0x02000#20, 0xFE003#20), (0x04000#20, 0xFC003#20), (0x08000#20, 0xF8003#20),
    (0x10000#20, 0xF0003#20), (0x20000#20, 0xE0003#20)] : List (BitVec 20 × BitVec 20)).map
    fun r => ⟨mnemonic, we ||| r.1, r.2⟩

/-- Every match/mask pair of the table's bus rows, the `also` pairs included. -/
def busTable : List BusPattern :=
  busExactRows
    ++ [⟨"RD_BIN", 0x40000#20, 0xC0003#20⟩]
    ++ [⟨"WR_RO", 0x80004#20, 0xFFFFF#20⟩, ⟨"WR_RO", 0x80010#20, 0xFFFFF#20⟩,
        ⟨"WR_RO", 0x80018#20, 0xFFFFB#20⟩, ⟨"WR_RO", 0x80020#20, 0xFFFFB#20⟩,
        ⟨"WR_RO", 0x80028#20, 0xFFFFF#20⟩, ⟨"WR_RO", 0x80030#20, 0xFFFF3#20⟩,
        ⟨"WR_RO", 0x80040#20, 0xFFFF3#20⟩, ⟨"WR_RO", 0xC0000#20, 0xC0003#20⟩]
    ++ busReservedRows "RD_RSVD" 0x00000#20
    ++ busReservedRows "WR_RSVD" 0x80000#20
    ++ [⟨"BUS_BAD", 0x00001#20, 0x00003#20⟩, ⟨"BUS_BAD", 0x00002#20, 0x00003#20⟩,
        ⟨"BUS_BAD", 0x00003#20, 0x00003#20⟩]

/-- The pattern matches the selector. -/
def BusPattern.hits (p : BusPattern) (sel : BitVec 20) : Bool := (sel &&& p.mask) == p.pattern

/-! ### Words numbered as the opcode table numbers them -/

/-- A bus access from one number: T in bits 19:0 (as the table numbers it), wdata in bits 51:20, the
byte enables that are clear in bits 55:52 (DESIGN CHOICE, log 12). -/
def BusAccess.ofBits (w : Nat) : BusAccess :=
  ⟨BitVec.ofNat 20 w, BitVec.ofNat 32 (w >>> 20), BitVec.ofNat 4 (w >>> 52)⟩

/-- The port a table row's word is presented on, told by its length: one byte a bus selector whose
fixed bits end below bit 8 (BUS_BAD), two bytes an ingress beat, three to seven bytes a bus access,
eight a header window standing alone in BUF (DESIGN CHOICE, log 13). -/
def PortWord.ofTable (nbits w : Nat) : Option PortWord :=
  if nbits = 0 then none
  else if nbits ≤ 8 then some (.access (BusAccess.ofBits w))
  else if nbits ≤ 16 then some (.beat (BitVec.ofNat 10 w))
  else if nbits ≤ 56 then some (.access (BusAccess.ofBits w))
  else some (.window 8 (BitVec.ofNat 64 w))

/-- The registers a table word is decoded against: the defaults of R7, as after reset. -/
def FrameCtx.default : FrameCtx :=
  ⟨({} : Params).magic, ({} : Params).maxPayloadHw⟩

/-- The instruction the decoder reads from a word of spec/opcode_table.json. -/
def decodeTableWord (nbits w : Nat) : Option Instr :=
  match PortWord.ofTable nbits w with
  | none => none
  | some p => match decode FrameCtx.default p with
    | .ok i => some i
    | .error _ => none

end Sys2Proof
end

