-- ==== Sys2Proof/Machine/State.lean ====
section
/-! DEFINITION. The state of FSE as plain data (spec/10_state.md), the reasons a step can stop, and the state after reset. -/

namespace Sys2Proof.Machine

/-- FSE has no fault outcome (spec/60_exceptions.md R200: it never traps; spec/93_implementation_defined.md
Part 1: no row uses `fault`), so no constructor stands here. -/
inductive Fault where
  deriving DecidableEq, Repr

/-- Why a step is refused: the run is then outside the spec and nothing is claimed of it. -/
inductive Refusal where
  /-- Raised by exec's arm of an operation that has no meaning yet. Safe. -/
  | notModelled (mnemonic : String)
  /-- Raised by BUS_BAD: a misaligned or partial host access (spec/43_host_bus.md R180: the model
  refuses it, no step is defined). Safe. -/
  | busContract
  /-- Raised by the ingress port: a beat with in_kind = 11 (spec/30_encoding.md R79: a model
  refuses the beat). Safe. -/
  | reservedBeatKind
  deriving DecidableEq, Repr

/-- RUN_STATE (spec/10_state.md R23). -/
inductive RunState where
  | running
  | disconnected
  deriving DecidableEq, Repr

/-- DISC_CAUSE (R24): NONE = 0, EOS = 1, ERR = 2. -/
inductive DiscCause where
  | none
  | eos
  | err
  deriving DecidableEq, Repr

/-- A spectrum record (R29). -/
structure Spectrum where
  valid : Bool
  seq : Word
  nbins : Nat
  bins : List Word64
  deriving DecidableEq, Repr

/-- The record of a slot that holds no spectrum (R27 to R29). -/
def Spectrum.empty : Spectrum := ⟨false, 0#32, 0, []⟩

/-- The stored fields of CTRL (R33); its action bits have no storage and read 0. -/
structure Ctrl where
  en : Bool
  capEn : Bool
  deriving DecidableEq, Repr

/-- The eight counters (R42), CNT_W = 32 bits each. -/
structure Counters where
  bytesIn : Word
  resyncDrops : Word
  lenRejects : Word
  framesOk : Word
  discarded : Word
  capErrs : Word
  spectra : Word
  oddTrunc : Word
  deriving DecidableEq, Repr

/-- All eight counters at 0 (reset and CLR_CNT). -/
def Counters.zero : Counters := ⟨0#32, 0#32, 0#32, 0#32, 0#32, 0#32, 0#32, 0#32⟩

/-- One message on the capture port (spec/30_encoding.md R81). -/
structure CaptureMsg where
  len : Nat
  bytes : List Byte
  deriving DecidableEq, Repr

/-- The ports and what the outside world does on them (spec/10_state.md R46): pending inputs, the
levels of the input pins, what FSE has sent out. None of this is state of FSE itself. -/
structure Ports where
  /-- beats the byte source offers, the head on the port (R46, spec/40_ingress.md R103) -/
  inQueue : List (BitVec 10)
  /-- accesses the host issues, in order (spec/20_memory.md R60) -/
  busQueue : List BusAccess
  /-- the interleaving: whose turn comes next (R47, log 4) -/
  sched : List Turn
  /-- how many turns were drawn beyond the schedule (the model's own, log 4) -/
  freeIdx : Nat
  /-- cap_ready at this step -/
  capReady : Bool
  /-- cap_resp at this step, should a message be sent -/
  capResp : CapResp
  /-- bus_rdata, what the last read returned (log 8) -/
  busRdata : Word
  /-- the capture messages sent, oldest first (log 9) -/
  capLog : List CaptureMsg
  deriving DecidableEq, Repr

/-- The whole state of FSE (R20, R48) and of its ports. -/
structure State where
  /-- the build parameters; no step changes them (spec/00_scope.md R7, log 1) -/
  params : Params
  /-- BUF, the accumulation buffer, head first (R21) -/
  buf : List Byte
  /-- HEAD_POS, the model-only stream position of the head (R22) -/
  headPos : Nat
  /-- RUN_STATE (R23) -/
  runState : RunState
  /-- DISC_CAUSE (R24) -/
  discCause : DiscCause
  /-- XF_BUSY (R25) -/
  xfBusy : Bool
  /-- XF_IN (R25): no value while XF_BUSY = 0 -/
  xfIn : Option (List Byte)
  /-- PUB, the published slot (R27) -/
  pub : Spectrum
  /-- VIEW, the reader's snapshot (R28) -/
  view : Spectrum
  /-- CTRL (R33) -/
  ctrl : Ctrl
  /-- EVENTS[4:0] (R35); bits 31:5 are reserved -/
  events : BitVec 5
  /-- IRQ_EN[4:0] (R36); bits 31:5 are reserved -/
  irqEn : BitVec 5
  /-- MAX_PAYLOAD, the ceiling (R38) -/
  maxPayload : Word
  /-- the eight counters (R42) -/
  cnt : Counters
  /-- the ports (R46) -/
  port : Ports
  deriving DecidableEq, Repr

/-- The ports with nothing offered, issued or sent (DESIGN CHOICE for the model's own fields, logs
4 and 6 to 9). -/
def Ports.quiet : Ports := ⟨[], [], [], 0, true, .ok, 0#32, []⟩

/-- The reset table of R48 for a build with parameters `p` and ports as they stand. -/
def State.resetWith (p : Params) (port : Ports) : State where
  params := p
  buf := []
  headPos := 0
  runState := .running
  discCause := .none
  xfBusy := false
  xfIn := none
  pub := Spectrum.empty
  view := Spectrum.empty
  ctrl := ⟨false, false⟩
  events := 0#5
  irqEn := 0#5
  maxPayload := p.maxPayloadHw
  cnt := Counters.zero
  port := port

/-- FSE right after reset (R48), with the default parameters of R7 and quiet ports. -/
def State.reset : State := State.resetWith {} Ports.quiet

/-- What an operation answers. -/
abbrev Result := Host.Outcome State Fault Refusal

end Sys2Proof.Machine
end

