-- ==== Sys2Proof/Machine/Operands.lean ====
section
/-! DEFINITION. The operand forms: wire integers and the header window, payloads, samples, the fields of a bus write, the halves of a bin (spec/00_scope.md R9 to R12, spec/30_encoding.md R70 to R77, spec/42_transform.md R131 to R134). -/

namespace Sys2Proof.Machine

/-- `u32le(S, o)` (R11); bytes past the end count as 0, but no rule reads past the end. -/
def u32le (s : List Byte) (o : Nat) : Word :=
  (s.getD (o + 3) 0#8) ++ (s.getD (o + 2) 0#8) ++ (s.getD (o + 1) 0#8) ++ (s.getD o 0#8)

/-- The four bytes of a u32 in wire order, least significant first (spec/20_memory.md R51). -/
def u32Bytes (v : Word) : List Byte :=
  [v.extractLsb' 0 8, v.extractLsb' 8 8, v.extractLsb' 16 8, v.extractLsb' 24 8]

/-- The header window W: bits 31:0 the magic candidate, bits 63:32 the length candidate (R77). -/
def headerWindow (buf : List Byte) : BitVec 64 := u32le buf 4 ++ u32le buf 0

/-- The payload of a frame at the head, `BUF[8 .. 8 + len)` (spec/41_framer.md R116). -/
def payloadOf (buf : List Byte) (len : Nat) : List Byte := (buf.drop Config.hdrLen).take len

/-- The bytes of a frame with the given magic and payload (R70). -/
def frameBytes (magic : Word) (payload : List Byte) : List Byte :=
  u32Bytes magic ++ u32Bytes (BitVec.ofNat 32 payload.length) ++ payload

/-- `sext_8(b)` (R12). -/
def sext8 (b : Byte) : Int := if b.toNat < 128 then b.toNat else (b.toNat : Int) - 256

/-- The sample vector of a payload: I at the even offset, Q at the odd one, a last odd byte dropped
(R131; spec/30_encoding.md R73, R75). -/
def samples : List Byte → List Sample
  | b0 :: b1 :: rest => ⟨sext8 b0, sext8 b1⟩ :: samples rest
  | [_] => []
  | [] => []

/-- Every sample of the vector is 0. -/
def allZero (x : List Sample) : Bool := x.all fun s => s == ⟨0, 0⟩

/-- dbNum (R134): the word of bin `k`. For the all-zero vector it is the word P2 demands; else what
the engine of this build gives (log 3). -/
def dbNum (p : Params) (x : List Sample) (k : Nat) : Word64 :=
  if allZero x then p.epsWord else Config.engine.word p.eps x k

/-- The bins of a payload's spectrum, k = 0 .. N-1 in natural order (R132, R135). -/
def spectrumBins (p : Params) (payload : List Byte) : List Word64 :=
  (List.range (samples payload).length).map (dbNum p (samples payload))

/-- Bits 31:0 or 63:32 of a bin (spec/20_memory.md R52, spec/43_host_bus.md R165). -/
def binHalf (w : Word64) (high : Bool) : Word :=
  if high then w.extractLsb' 32 32 else w.extractLsb' 0 32

/-- `min(v, MAX_PAYLOAD_HW)`, the legal value a MAX_PAYLOAD write stores (spec/10_state.md R38). -/
def legalCeiling (p : Params) (v : Word) : Word :=
  if v.toNat ≤ p.maxPayloadHw.toNat then v else p.maxPayloadHw

/-- EN, CAP_EN and the action bits of a CTRL write (spec/10_state.md R33). -/
structure CtrlWrite where
  en : Bool
  capEn : Bool
  restart : Bool
  snap : Bool
  clrCnt : Bool
  deriving DecidableEq, Repr

/-- The fields of `bus_wdata` for CTRL; bits 31:5 are ignored (spec/43_host_bus.md R152). -/
def ctrlFields (v : Word) : CtrlWrite :=
  ⟨v.getLsbD 0, v.getLsbD 1, v.getLsbD 2, v.getLsbD 3, v.getLsbD 4⟩

/-- `bus_wdata[4:0]`, the event bits of an EVENTS or IRQ_EN write (R158, R160). -/
def eventBits (v : Word) : BitVec 5 := v.extractLsb' 0 5

/-- The low 5 bits of a register whose bits 31:5 are reserved and read 0 (spec/10_state.md R32). -/
def zext5 (v : BitVec 5) : Word := 0#27 ++ v

end Sys2Proof.Machine
end

