-- ==== Sys2Proof/Machine/Flags.lean ====
section
/-! DEFINITION. What is computed from the state: the framer's decision, quiescence and holds, the readiness of the ports, STATUS, irq (spec/41_framer.md R110, R111, R116; spec/40_ingress.md R103; spec/10_state.md R34, R43, R46). -/

namespace Sys2Proof.Machine

/-- The framer's decision (R110). -/
inductive FrDecision where
  | waitHdr
  | drop1
  | drop4 (len : Word)
  | waitPay (len : Word)
  | emit (len : Word)
  deriving DecidableEq, Repr

/-- `frDecide(BUF, MAGIC, MAXP)`, the checks in R110's order. -/
def frDecide (buf : List Byte) (magic maxp : Word) : FrDecision :=
  if buf.length < 8 then .waitHdr
  else
    let m := u32le buf 0
    if m ≠ magic then .drop1
    else
      let len := u32le buf 4
      if len.toNat > maxp.toNat then .drop4 len
      else
        let total := 8 + len.toNat
        if buf.length < total then .waitPay len
        else .emit len

/-- The operation a decision selects (spec/30_encoding.md R84). -/
def FrDecision.toInstr : FrDecision → Instr
  | .waitHdr => .frWaitHdr
  | .drop1 => .frDrop1
  | .drop4 len => .frDrop4 len
  | .waitPay len => .frWaitPay len
  | .emit len => .frEmit len

/-- The registers a framer decision reads (spec/10_state.md R26). -/
def State.frameCtx (s : State) : FrameCtx := ⟨s.params.magic, s.maxPayload⟩

/-- The framer's decision in this state. -/
def State.decision (s : State) : FrDecision := frDecide s.buf s.params.magic s.maxPayload

/-- The decision is a wait. -/
def FrDecision.isWait : FrDecision → Bool
  | .waitHdr => true
  | .waitPay _ => true
  | .drop1 => false
  | .drop4 _ => false
  | .emit _ => false

/-- The decision is FR_EMIT. -/
def FrDecision.isEmit : FrDecision → Bool
  | .emit _ => true
  | .waitHdr => false
  | .waitPay _ => false
  | .drop1 => false
  | .drop4 _ => false

/-- The framer is quiescent: its decision is FR_WAIT_HDR or FR_WAIT_PAY (R111). -/
def State.quiescent (s : State) : Bool := s.decision.isWait

/-- What an FR_EMIT waits for beside its decision: XF idle, and the capture port ready when it is
used (R116). -/
def State.emitReady (s : State) : Bool := !s.xfBusy && (!s.ctrl.capEn || s.port.capReady)

/-- The framer is held: FR_EMIT is decided and its step is not enabled (R116, STATUS.HELD). -/
def State.held (s : State) : Bool := s.decision.isEmit && !s.emitReady

/-- The framer has an enabled step (R111, R112, R115, R116). -/
def State.frmEnabled (s : State) : Bool := !s.quiescent && !s.held

/-- FSE is settled: neither the framer nor the engine has an enabled step (spec/60_exceptions.md R224). -/
def State.settled (s : State) : Bool := !s.frmEnabled && !s.xfBusy

/-- CTRL.EN = 1 and RUN_STATE = RUNNING, common to every kind of beat (R103). -/
def State.ingressOpen (s : State) : Bool := s.ctrl.en && s.runState == .running

/-- `in_ready(DATA)` (R103). -/
def State.dataReady (s : State) : Bool := s.ingressOpen && decide (s.buf.length < s.params.bufCap)

/-- `in_ready(EOS | ERR)` (R103). -/
def State.closeReady (s : State) : Bool := s.ingressOpen && s.quiescent

/-- The capture session signal, cap_session = CTRL.CAP_EN (spec/10_state.md R46). -/
def State.capSession (s : State) : Bool := s.ctrl.capEn

/-- The interrupt output: the OR of the enabled event bits (R43). -/
def State.irq (s : State) : Bool := (s.events &&& s.irqEn) != 0#5

/-- The code of a cause (R24). -/
def DiscCause.code : DiscCause → BitVec 2
  | .none => 0
  | .eos => 1
  | .err => 2

/-- STATUS as a read returns it (R34, spec/43_host_bus.md R156). -/
def State.statusWord (s : State) : Word :=
  0#24 ++ BitVec.ofBool s.quiescent ++ BitVec.ofBool s.held ++ BitVec.ofBool s.view.valid
    ++ BitVec.ofBool s.pub.valid ++ BitVec.ofBool s.xfBusy ++ s.discCause.code
    ++ BitVec.ofBool (s.runState == .disconnected)

/-- CTRL as a read returns it: the action bits read 0 (spec/43_host_bus.md R151). -/
def Ctrl.word (c : Ctrl) : Word :=
  0#27 ++ 0#1 ++ 0#1 ++ 0#1 ++ BitVec.ofBool c.capEn ++ BitVec.ofBool c.en

end Sys2Proof.Machine
end

