-- ==== Sys2Proof/Machine/Ops.lean ====
section
/-! DEFINITION. The named operations over the state: the stream buffer, the events (raising one, and the two returns from one), the spectrum slots, the host registers by address, the ports. -/

namespace Sys2Proof.Machine

/-! ### The accumulation buffer -/

/-- Append one stream byte and count it (spec/40_ingress.md R100). -/
def State.appendByte (s : State) (b : Byte) : State :=
  { s with buf := s.buf ++ [b], cnt := { s.cnt with bytesIn := s.cnt.bytesIn + 1#32 } }

/-- Remove `k` bytes from the head of BUF and advance HEAD_POS (spec/10_state.md R22). -/
def State.dropHead (s : State) (k : Nat) : State :=
  { s with buf := s.buf.drop k, headPos := s.headPos + k }

/-- Empty BUF and count what is lost in DISCARDED (spec/40_ingress.md R101, spec/43_host_bus.md R153). -/
def State.discardBuf (s : State) : State :=
  { s with buf := [], cnt := { s.cnt with discarded := s.cnt.discarded + BitVec.ofNat 32 s.buf.length } }

/-! ### Events: taking one, and returning from one -/

/-- The five events of spec/60_exceptions.md R201; DISC carries its cause. -/
inductive Event where
  | newSpec
  | disc (cause : DiscCause)
  | capErr
  | lenRej
  | resync
  deriving DecidableEq, Repr

/-- The event's EVENTS bit (R201, spec/10_state.md R35). -/
def Event.bit : Event → BitVec 5
  | .newSpec => 0b00001#5
  | .disc _ => 0b00010#5
  | .capErr => 0b00100#5
  | .lenRej => 0b01000#5
  | .resync => 0b10000#5

/-- What an event changes beside its EVENTS bit: its counter and, for DISC only, RUN_STATE,
DISC_CAUSE and BUF (R213, R201). -/
def State.eventEffects (s : State) : Event → State
  | .newSpec => { s with cnt := { s.cnt with spectra := s.cnt.spectra + 1#32 } }
  | .disc cause => { s.discardBuf with runState := .disconnected, discCause := cause }
  | .capErr => { s with cnt := { s.cnt with capErrs := s.cnt.capErrs + 1#32 } }
  | .lenRej => { s with cnt := { s.cnt with lenRejects := s.cnt.lenRejects + 1#32 } }
  | .resync => { s with cnt := { s.cnt with resyncDrops := s.cnt.resyncDrops + 1#32 } }

/-- `raise E(info)` (spec/00_scope.md R15): everything the event changes, and nothing else (R213).
No agent's flow changes but by DISC, which closes the ingress port. -/
def State.raise (s : State) (e : Event) : State :=
  { s.eventEffects e with events := s.events ||| e.bit }

/-- Return from an event: the W1C of its bit (R214, spec/43_host_bus.md R158). -/
def State.clearEvents (s : State) (bits : BitVec 5) : State :=
  { s with events := s.events &&& ~~~bits }

/-- RESTART, the return from DISC (R214, spec/43_host_bus.md R153). -/
def State.restart (s : State) : State :=
  { s.discardBuf with headPos := 0, runState := .running, discCause := .none }

/-! ### The spectrum engine and its slots -/

/-- Hand a payload to the engine (spec/41_framer.md R116). -/
def State.handPayload (s : State) (payload : List Byte) : State :=
  { s with xfIn := some payload, xfBusy := true }

/-- The payload in the engine; the empty one where XF_IN holds none, which no reachable busy state
shows (log 16). -/
def State.xfPayload (s : State) : List Byte := s.xfIn.getD []

/-- The record a transform publishes (spec/42_transform.md R135). -/
def State.nextSpectrum (s : State) : Spectrum where
  valid := true
  seq := s.pub.seq + 1#32
  nbins := s.xfPayload.length / 2
  bins := spectrumBins s.params s.xfPayload

/-- Replace PUB whole (R135, spec/20_memory.md R55). -/
def State.publish (s : State) (r : Spectrum) : State := { s with pub := r }

/-- Count an odd payload length (R135, spec/10_state.md R42). -/
def State.countOdd (s : State) (len : Nat) : State :=
  if len % 2 = 1 then { s with cnt := { s.cnt with oddTrunc := s.cnt.oddTrunc + 1#32 } } else s

/-- The engine is idle again (R135). -/
def State.engineIdle (s : State) : State := { s with xfBusy := false, xfIn := none }

/-- SNAP: VIEW takes PUB whole (spec/43_host_bus.md R154). -/
def State.snap (s : State) : State := { s with view := s.pub }

/-- Count an emitted frame (spec/41_framer.md R116). -/
def State.countFrame (s : State) : State :=
  { s with cnt := { s.cnt with framesOk := s.cnt.framesOk + 1#32 } }

/-! ### The capture port -/

/-- Send one message on the capture port (spec/30_encoding.md R81). -/
def State.sendCapture (s : State) (payload : List Byte) : State :=
  { s with port := { s.port with capLog := s.port.capLog ++ [⟨payload.length, payload⟩] } }

/-- The tee of one payload: nothing with CAP_EN = 0; else the message, and CAPERR when the sink
answers FAIL (spec/41_framer.md R116). -/
def State.tee (s : State) (payload : List Byte) : State :=
  if s.ctrl.capEn then
    match s.port.capResp with
    | .ok => s.sendCapture payload
    | .fail => (s.sendCapture payload).raise .capErr
  else s

/-! ### Host registers -/

/-- A read's answer on bus_rdata; the only thing a read changes (spec/20_memory.md R58). -/
def State.busReturn (s : State) (v : Word) : State :=
  { s with port := { s.port with busRdata := v } }

/-- EN and CAP_EN of a CTRL write (spec/43_host_bus.md R152). -/
def State.setCtrl (s : State) (en capEn : Bool) : State := { s with ctrl := ⟨en, capEn⟩ }

/-- CLR_CNT: all eight counters to 0 (spec/43_host_bus.md R155). -/
def State.clrCnt (s : State) : State := { s with cnt := Counters.zero }

/-- A CTRL write: EN and CAP_EN, then RESTART, SNAP and CLR_CNT in this order (R152). -/
def State.writeCtrl (s : State) (w : CtrlWrite) : State :=
  let s1 := s.setCtrl w.en w.capEn
  let s2 := if w.restart then s1.restart else s1
  let s3 := if w.snap then s2.snap else s2
  if w.clrCnt then s3.clrCnt else s3

/-- IRQ_EN[4:0] (spec/43_host_bus.md R160). -/
def State.setIrqEn (s : State) (bits : BitVec 5) : State := { s with irqEn := bits }

/-- MAX_PAYLOAD, WARL (spec/43_host_bus.md R163). -/
def State.setCeiling (s : State) (v : Word) : State :=
  { s with maxPayload := legalCeiling s.params v }

/-- One half of bin `k` of VIEW, 0 at and past VIEW.nbins (spec/43_host_bus.md R165). -/
def State.viewBin (s : State) (k : Nat) (high : Bool) : Word :=
  if k < s.view.nbins then binHalf (s.view.bins.getD k 0#64) high else 0#32

/-- `MemRead(addr, 4)` (spec/00_scope.md R14) by the register map of spec/10_state.md R30 and the
address map of spec/20_memory.md R56, R57; the meaning of an aligned read, said once by address. -/
def State.memRead (s : State) (addr : BitVec 19) : Word :=
  let a := addr.toNat
  if 0x40000 ≤ a then s.viewBin ((a - 0x40000) / 8) (decide ((a - 0x40000) % 8 = 4))
  else if a = 0x000 then s.ctrl.word
  else if a = 0x004 then s.statusWord
  else if a = 0x008 then zext5 s.events
  else if a = 0x00C then zext5 s.irqEn
  else if a = 0x010 then s.params.magic
  else if a = 0x014 then s.maxPayload
  else if a = 0x018 then BitVec.ofNat 32 s.buf.length
  else if a = 0x01C then s.pub.seq
  else if a = 0x020 then BitVec.ofNat 32 s.pub.nbins
  else if a = 0x024 then s.view.seq
  else if a = 0x028 then BitVec.ofNat 32 s.view.nbins
  else if a = 0x030 then s.cnt.bytesIn
  else if a = 0x034 then s.cnt.resyncDrops
  else if a = 0x038 then s.cnt.lenRejects
  else if a = 0x03C then s.cnt.framesOk
  else if a = 0x040 then s.cnt.discarded
  else if a = 0x044 then s.cnt.capErrs
  else if a = 0x048 then s.cnt.spectra
  else if a = 0x04C then s.cnt.oddTrunc
  else 0#32

/-- `MemWrite(addr, 4, v)` (R14) by the same maps: only CTRL, EVENTS, IRQ_EN and MAX_PAYLOAD take a
write (spec/10_state.md R31, spec/43_host_bus.md R178, R179). -/
def State.memWrite (s : State) (addr : BitVec 19) (v : Word) : State :=
  let a := addr.toNat
  if a = 0x000 then s.writeCtrl (ctrlFields v)
  else if a = 0x008 then s.clearEvents (eventBits v)
  else if a = 0x00C then s.setIrqEn (eventBits v)
  else if a = 0x014 then s.setCeiling v
  else s

/-! ### The input side of the ports -/

/-- The turn that comes next: the schedule's head, or a free one where no schedule stands (log 4). -/
def State.nextTurn (s : State) : Turn :=
  match s.port.sched with
  | t :: _ => t
  | [] => Config.freeTurn s.port.freeIdx

/-- The next turn begins: it leaves the schedule, and the capture sink's pins show its levels. -/
def State.beginTurn (s : State) : State :=
  { s with port := { s.port with
      sched := s.port.sched.tail
      freeIdx := match s.port.sched with
        | [] => s.port.freeIdx + 1
        | _ :: _ => s.port.freeIdx
      capReady := s.nextTurn.capReady
      capResp := s.nextTurn.capResp } }

/-- The beat on the port is taken. -/
def State.takeBeat (s : State) : State :=
  { s with port := { s.port with inQueue := s.port.inQueue.tail } }

/-- The bus access is taken. -/
def State.takeAccess (s : State) : State :=
  { s with port := { s.port with busQueue := s.port.busQueue.tail } }

end Sys2Proof.Machine
end

