-- ==== Sys2Proof/Machine/Engine.lean ====
section
/-! DEFINITION. The spectrum engine's operation (spec/42_transform.md R135). -/

namespace Sys2Proof.Machine

/-- XF_DONE (R135): transform the payload in XF_IN and publish its spectrum; no step while idle. -/
def execXfDone (s : State) : Result :=
  if s.xfBusy then
    .next ((((s.publish s.nextSpectrum).countOdd s.xfPayload.length).raise .newSpec).engineIdle)
  else .next s

end Sys2Proof.Machine
end

