-- ==== Sys2Proof/Machine/Framer.lean ====
section
/-! DEFINITION. The framer's operations (spec/41_framer.md R112 to R116). A wait takes no step, and an operation that is not decided or is held has none (spec/00_scope.md R16): the meaning then changes nothing (log 5). -/

namespace Sys2Proof.Machine

/-- FR_WAIT_HDR (R112): no step, no effect. -/
def execFrWaitHdr (s : State) : Result := .next s

/-- FR_DROP1 (R113): one byte of garbage goes. -/
def execFrDrop1 (s : State) : Result :=
  if s.decision = .drop1 then .next ((s.dropHead 1).raise .resync) else .next s

/-- FR_DROP4 (R114): the 4 magic bytes of a header above the ceiling go. -/
def execFrDrop4 (len : Word) (s : State) : Result :=
  if s.decision = .drop4 len then .next ((s.dropHead 4).raise .lenRej) else .next s

/-- FR_WAIT_PAY (R115): no step, no effect. -/
def execFrWaitPay (_len : Word) (s : State) : Result := .next s

/-- The effect of an enabled FR_EMIT, in R116's order: tee, hand to the engine, remove the frame,
count it. -/
def State.emitFrame (s : State) (len : Nat) : State :=
  (((s.tee (payloadOf s.buf len)).handPayload (payloadOf s.buf len)).dropHead (8 + len)).countFrame

/-- FR_EMIT (R116): emit the payload of the complete valid frame at the head; held while the engine
is busy or the capture port in use is not ready. -/
def execFrEmit (len : Word) (s : State) : Result :=
  if s.decision = .emit len ∧ s.emitReady then .next (s.emitFrame len.toNat) else .next s

end Sys2Proof.Machine
end

