-- ==== Sys2Proof/Machine/HostBus.lean ====
section
/-! DEFINITION. The host bus operations (spec/43_host_bus.md R150 to R180). Every aligned full access is enabled in every state (R150); a read changes bus_rdata only (spec/20_memory.md R58). -/

namespace Sys2Proof.Machine

/-- RD_CTRL (R151). -/
def execRdCtrl (s : State) : Result := .next (s.busReturn s.ctrl.word)

/-- WR_CTRL (R152): EN and CAP_EN, then the actions RESTART (R153), SNAP (R154), CLR_CNT (R155). -/
def execWrCtrl (v : Word) (s : State) : Result := .next (s.writeCtrl (ctrlFields v))

/-- RD_STATUS (R156). -/
def execRdStatus (s : State) : Result := .next (s.busReturn s.statusWord)

/-- RD_EVENTS (R157): reading clears nothing. -/
def execRdEvents (s : State) : Result := .next (s.busReturn (zext5 s.events))

/-- WR_EVENTS (R158): W1C of bits 4:0. -/
def execWrEvents (v : Word) (s : State) : Result := .next (s.clearEvents (eventBits v))

/-- RD_IRQ_EN (R159). -/
def execRdIrqEn (s : State) : Result := .next (s.busReturn (zext5 s.irqEn))

/-- WR_IRQ_EN (R160): bits 4:0. -/
def execWrIrqEn (v : Word) (s : State) : Result := .next (s.setIrqEn (eventBits v))

/-- RD_MAGIC (R161). -/
def execRdMagic (s : State) : Result := .next (s.busReturn s.params.magic)

/-- RD_MAX_PAYLOAD (R162). -/
def execRdMaxPayload (s : State) : Result := .next (s.busReturn s.maxPayload)

/-- WR_MAX_PAYLOAD (R163): stores min(v, MAX_PAYLOAD_HW). -/
def execWrMaxPayload (v : Word) (s : State) : Result := .next (s.setCeiling v)

/-- RD_BUF_LEVEL (R164). -/
def execRdBufLevel (s : State) : Result := .next (s.busReturn (BitVec.ofNat 32 s.buf.length))

/-- RD_PUB_SEQ (R166). -/
def execRdPubSeq (s : State) : Result := .next (s.busReturn s.pub.seq)

/-- RD_PUB_NBINS (R167). -/
def execRdPubNbins (s : State) : Result := .next (s.busReturn (BitVec.ofNat 32 s.pub.nbins))

/-- RD_VIEW_SEQ (R168). -/
def execRdViewSeq (s : State) : Result := .next (s.busReturn s.view.seq)

/-- RD_VIEW_NBINS (R169). -/
def execRdViewNbins (s : State) : Result := .next (s.busReturn (BitVec.ofNat 32 s.view.nbins))

/-- RD_BYTES_IN (R170). -/
def execRdBytesIn (s : State) : Result := .next (s.busReturn s.cnt.bytesIn)

/-- RD_RESYNC_DROPS (R171). -/
def execRdResyncDrops (s : State) : Result := .next (s.busReturn s.cnt.resyncDrops)

/-- RD_LEN_REJECTS (R172). -/
def execRdLenRejects (s : State) : Result := .next (s.busReturn s.cnt.lenRejects)

/-- RD_FRAMES_OK (R173). -/
def execRdFramesOk (s : State) : Result := .next (s.busReturn s.cnt.framesOk)

/-- RD_DISCARDED (R174). -/
def execRdDiscarded (s : State) : Result := .next (s.busReturn s.cnt.discarded)

/-- RD_CAP_ERRS (R175). -/
def execRdCapErrs (s : State) : Result := .next (s.busReturn s.cnt.capErrs)

/-- RD_SPECTRA (R176). -/
def execRdSpectra (s : State) : Result := .next (s.busReturn s.cnt.spectra)

/-- RD_ODD_TRUNC (R177). -/
def execRdOddTrunc (s : State) : Result := .next (s.busReturn s.cnt.oddTrunc)

/-- RD_BIN (R165): one half of bin k of VIEW, 0 for k at or past VIEW.nbins. -/
def execRdBin (k : BitVec 15) (high : Bool) (s : State) : Result :=
  .next (s.busReturn (s.viewBin k.toNat high))

/-- WR_RO (R178): the write is ignored. -/
def execWrRo (_addr : BitVec 19) (_v : Word) (s : State) : Result := .next s

/-- RD_RSVD (R179): reads 0. -/
def execRdRsvd (_addr : BitVec 19) (s : State) : Result := .next (s.busReturn 0#32)

/-- WR_RSVD (R179): the write is ignored. -/
def execWrRsvd (_addr : BitVec 19) (_v : Word) (s : State) : Result := .next s

/-- BUS_BAD (R180): outside the bus contract, "The model refuses it: no step is defined". -/
def execBusBad (_sel : BitVec 20) (_v : Word) (_lanesOff : BitVec 4) (_s : State) : Result :=
  .refused .busContract

end Sys2Proof.Machine
end

