-- ==== Sys2Proof/Machine/Ingress.lean ====
section
/-! DEFINITION. The ingress operations (spec/40_ingress.md R100 to R105). An operation whose guard is false has no step (spec/00_scope.md R16): the meaning then changes nothing and the beat stays on the port (log 5). -/

namespace Sys2Proof.Machine

/-- IN_DATA (R100): append one stream byte. -/
def execInData (data : Byte) (s : State) : Result :=
  if s.dataReady then .next (s.appendByte data) else .next s

/-- IN_EOS (R101): orderly close; in_data is ignored. -/
def execInEos (_data : Byte) (s : State) : Result :=
  if s.closeReady then .next (s.raise (.disc .eos)) else .next s

/-- IN_ERR (R102): read failure; in_data is ignored. -/
def execInErr (_data : Byte) (s : State) : Result :=
  if s.closeReady then .next (s.raise (.disc .err)) else .next s

end Sys2Proof.Machine
end

