-- ==== Sys2Proof/Machine/Reset.lean ====
section
/-! DEFINITION. The reset operation (spec/70_reset_and_hazards.md R230). -/

namespace Sys2Proof.Machine

/-- RESET (R230): every piece of FSE's state takes its value from the table of
spec/10_state.md R48. The build parameters and the ports stay: an offered beat stays offered (R230
corner case 1, log 10). -/
def execReset (s : State) : Result := .next (State.resetWith s.params s.port)

end Sys2Proof.Machine
end

