-- ==== Sys2Proof/Machine/Dispatch.lean ====
section
/-! DEFINITION. One arm for each operation of spec/opcode_table.json. -/

namespace Sys2Proof.Machine

def exec (i : Instr) (s : State) : Host.Outcome State Fault Refusal :=
  match i with
  | .inData data => Sys2Proof.Machine.execInData data s
  | .inEos data => Sys2Proof.Machine.execInEos data s
  | .inErr data => Sys2Proof.Machine.execInErr data s
  | .frWaitHdr => Sys2Proof.Machine.execFrWaitHdr s
  | .frDrop1 => Sys2Proof.Machine.execFrDrop1 s
  | .frDrop4 len => Sys2Proof.Machine.execFrDrop4 len s
  | .frWaitPay len => Sys2Proof.Machine.execFrWaitPay len s
  | .frEmit len => Sys2Proof.Machine.execFrEmit len s
  | .xfDone => Sys2Proof.Machine.execXfDone s
  | .rdCtrl => Sys2Proof.Machine.execRdCtrl s
  | .wrCtrl v => Sys2Proof.Machine.execWrCtrl v s
  | .rdStatus => Sys2Proof.Machine.execRdStatus s
  | .rdEvents => Sys2Proof.Machine.execRdEvents s
  | .wrEvents v => Sys2Proof.Machine.execWrEvents v s
  | .rdIrqEn => Sys2Proof.Machine.execRdIrqEn s
  | .wrIrqEn v => Sys2Proof.Machine.execWrIrqEn v s
  | .rdMagic => Sys2Proof.Machine.execRdMagic s
  | .rdMaxPayload => Sys2Proof.Machine.execRdMaxPayload s
  | .wrMaxPayload v => Sys2Proof.Machine.execWrMaxPayload v s
  | .rdBufLevel => Sys2Proof.Machine.execRdBufLevel s
  | .rdPubSeq => Sys2Proof.Machine.execRdPubSeq s
  | .rdPubNbins => Sys2Proof.Machine.execRdPubNbins s
  | .rdViewSeq => Sys2Proof.Machine.execRdViewSeq s
  | .rdViewNbins => Sys2Proof.Machine.execRdViewNbins s
  | .rdBytesIn => Sys2Proof.Machine.execRdBytesIn s
  | .rdResyncDrops => Sys2Proof.Machine.execRdResyncDrops s
  | .rdLenRejects => Sys2Proof.Machine.execRdLenRejects s
  | .rdFramesOk => Sys2Proof.Machine.execRdFramesOk s
  | .rdDiscarded => Sys2Proof.Machine.execRdDiscarded s
  | .rdCapErrs => Sys2Proof.Machine.execRdCapErrs s
  | .rdSpectra => Sys2Proof.Machine.execRdSpectra s
  | .rdOddTrunc => Sys2Proof.Machine.execRdOddTrunc s
  | .rdBin k high => Sys2Proof.Machine.execRdBin k high s
  | .wrRo addr v => Sys2Proof.Machine.execWrRo addr v s
  | .rdRsvd addr => Sys2Proof.Machine.execRdRsvd addr s
  | .wrRsvd addr v => Sys2Proof.Machine.execWrRsvd addr v s
  | .busBad sel v lanesOff => Sys2Proof.Machine.execBusBad sel v lanesOff s
  | .reset => Sys2Proof.Machine.execReset s

end Sys2Proof.Machine
end

