-- ==== Sys2Proof/Machine/Fetch.lean ====
section
/-! DEFINITION. What the agent whose turn it is puts before the machine, the handshake that takes it, and how an operation's bits are presented (spec/10_state.md R46, R47; spec/40_ingress.md R103; spec/43_host_bus.md R150). -/

namespace Sys2Proof.Machine

/-- What the agent presents: the beat offered on the ingress port, the framer's view of BUF, a busy
engine, the host's access, an asserted reset; `none` when the agent has nothing to do. -/
def State.portWord (s : State) : Agent → Option PortWord
  | .ing => s.port.inQueue.head?.map .beat
  | .frm => some (.window s.buf.length (headerWindow s.buf))
  | .xf => if s.xfBusy then some .engine else none
  | .host => s.port.busQueue.head?.map .access
  | .rst => some .rst

/-- `in_ready` for the beat offered, by its kind (R103); kind 11 is refused before it is asked for. -/
def State.inReady (s : State) (b : BitVec 10) : Bool :=
  match (b.extractLsb' 8 2).toNat with
  | 0 => s.dataReady
  | 1 => s.closeReady
  | 2 => s.closeReady
  | _ => false

/-- The handshake of the agent's port: a beat leaves the port only when in_ready = 1 (R103, until
then the source holds it), a bus access always does (R150); the other agents have no port to take
from. -/
def State.handshake (s : State) : Agent → State
  | .ing => match s.port.inQueue with
    | [] => s
    | b :: _ => if s.inReady b then s.takeBeat else s
  | .host => s.takeAccess
  | .frm => s
  | .xf => s
  | .rst => s

/-- The refusal of bits that name no operation (spec/30_encoding.md R79). -/
def refusalOf : DecodeError → Refusal
  | .reservedBeatKind _ => .reservedBeatKind

/-- The agent's turn is put before the schedule, with the capture sink ready and answering OK. -/
def State.schedule (s : State) (a : Agent) : State :=
  { s with port := { s.port with sched := ⟨a, true, .ok⟩ :: s.port.sched } }

/-- The bits are presented so that the very next step takes them (log 14): a beat on the ingress
port with CTRL.EN = 1, without which the port takes no beat (R103); an access on the host bus; a
header window as the whole of BUF; a payload in the engine; the reset input. -/
def State.present (s : State) : PortWord → State
  | .beat b =>
    { s with ctrl := { s.ctrl with en := true }
             port := { s.port with inQueue := b :: s.port.inQueue } }.schedule .ing
  | .access a =>
    { s with port := { s.port with busQueue := a :: s.port.busQueue } }.schedule .host
  | .window level w =>
    { s with buf := (u32Bytes (w.extractLsb' 0 32) ++ u32Bytes (w.extractLsb' 32 32)
                      ++ List.replicate (level - 8) 0#8).take level }.schedule .frm
  | .engine => { s with xfBusy := true, xfIn := some s.xfPayload }.schedule .xf
  | .rst => s.schedule .rst

end Sys2Proof.Machine
end

