-- ==== Sys2Proof/Machine/Step.lean ====
section
/-! DEFINITION. One step of the interleaving: the next turn's agent takes its step, if it has one (spec/00_scope.md R16, spec/10_state.md R47, spec/20_memory.md R60). -/

namespace Sys2Proof.Machine

/-- One step. The turn begins; its agent's bits are decoded and executed after the port's handshake.
An agent with nothing to do lets its turn pass (log 5). -/
def step (s : State) : Host.Outcome State Fault Refusal :=
  match s.beginTurn.portWord s.nextTurn.agent with
  | none => .next s.beginTurn
  | some w =>
    match decode s.beginTurn.frameCtx w with
    | .error e => .refused (refusalOf e)
    | .ok i => exec i (s.beginTurn.handshake s.nextTurn.agent)

/-- `s` with the table word presented to the next step (log 14). -/
def State.withFetchWord (s : State) (nbits w : Nat) : State :=
  match PortWord.ofTable nbits w with
  | none => s
  | some p => s.present p

end Sys2Proof.Machine
end

