-- ==== Sys2Proof/Safety.lean ====
section
/-! DEFINITION. What counts as a good state and a good run, in the terms the claims use: the state invariant, the framer's moves, the runs of the data agents over a given byte stream, fair runs. -/

namespace Sys2Proof.Machine

/-- A spectrum record as spec/10_state.md R29 has it: nbins bins, at most MAX_BINS, each a finite
binary64 word (spec/42_transform.md R134 P3), and all zero when not valid. -/
structure Spectrum.Good (maxBins : Nat) (r : Spectrum) : Prop where
  length_eq : r.bins.length = r.nbins
  nbins_le : r.nbins ≤ maxBins
  finite : ∀ w ∈ r.bins, finite64 w = true
  empty_of_invalid : r.valid = false → r = Spectrum.empty

/-- The invariant of FSE: every clause is one the spec gives for every reachable state
(spec/00_scope.md R8; spec/10_state.md R23 to R29, R38, R44; spec/20_memory.md R68). -/
structure State.Inv (s : State) : Prop where
  /-- the build is one R8 allows -/
  legal : s.params.Legal
  /-- R44: |BUF| <= BUF_CAP -/
  buf_le : s.buf.length ≤ s.params.bufCap
  /-- R38: MAX_PAYLOAD <= MAX_PAYLOAD_HW -/
  ceiling_le : s.maxPayload.toNat ≤ s.params.maxPayloadHw.toNat
  /-- R25: XF_IN holds a payload exactly while XF_BUSY = 1 -/
  busy_iff : s.xfBusy = s.xfIn.isSome
  /-- R25, R68: |XF_IN| <= MAX_PAYLOAD_HW -/
  payload_le : ∀ p, s.xfIn = some p → p.length ≤ s.params.maxPayloadHw.toNat
  /-- R24: DISC_CAUSE is NONE exactly while RUNNING -/
  cause_iff : s.discCause = .none ↔ s.runState = .running
  /-- R101, R105: nothing is buffered while DISCONNECTED -/
  disconnected_empty : s.runState = .disconnected → s.buf = []
  /-- R27, R29 -/
  pub_good : s.pub.Good s.params.maxBins
  /-- R28, R29 -/
  view_good : s.view.Good s.params.maxBins
  /-- R28: VIEW holds what PUB held at a SNAP, so it holds a spectrum only after one was published -/
  view_valid : s.view.valid = true → s.pub.valid = true

/-- The state after the framer's turn (spec/41_framer.md R111). -/
def State.frmMove (s : State) : State :=
  match exec s.decision.toInstr s with
  | .next t => t
  | .fault _ => s
  | .refused _ => s

/-- `n` turns of the framer, with no other agent's step between them. -/
def State.frmRun : Nat → State → State
  | 0, s => s
  | n + 1, s => State.frmRun n s.frmMove

/-- One move of the data agents (ING, FRM, XF) of FSE over the bytes the source has still to send;
the capture sink's pins stay as they are. Every interleaving of the three agents is a run of these
moves (spec/10_state.md R47). -/
inductive DataMove : State × List Byte → State × List Byte → Prop where
  /-- ING: the next byte of the stream is taken -/
  | byte {s t : State} {b : Byte} {rest : List Byte} :
      s.dataReady = true → exec (.inData b) s = .next t → DataMove (s, b :: rest) (t, rest)
  /-- FRM: its decided operation is enabled and taken -/
  | frm {s t : State} {rest : List Byte} :
      s.frmEnabled = true → exec s.decision.toInstr s = .next t → DataMove (s, rest) (t, rest)
  /-- XF: the payload in the engine is transformed -/
  | xf {s t : State} {rest : List Byte} :
      s.xfBusy = true → exec .xfDone s = .next t → DataMove (s, rest) (t, rest)

/-- A run of the data agents: any number of moves, in any order. -/
def DataRun : State × List Byte → State × List Byte → Prop := Relation.ReflTransGen DataMove

/-- `t` is a settled end of a run from `s` that takes all of `bytes` (spec/60_exceptions.md R224). -/
def SettlesAt (s : State) (bytes : List Byte) (t : State) : Prop :=
  DataRun (s, bytes) (t, []) ∧ t.settled = true

/-- An endless run of the machine: every state steps to the next. -/
def IsRun (run : Nat → State) : Prop := ∀ n, step (run n) = .next (run (n + 1))

/-- FSE's own agent `a` has an enabled step in the turn that begins in `s`, with the capture pins as
the turn shows them: the framer's decided operation (spec/41_framer.md R111), or the engine's
transform (spec/42_transform.md R135). The other agents' steps are the outside world's. -/
def State.agentEnabled (s : State) : Agent → Bool
  | .frm => s.beginTurn.frmEnabled
  | .xf => s.beginTurn.xfBusy
  | .ing => false
  | .host => false
  | .rst => false

/-- The agent takes its enabled step from `s`. -/
def State.agentTakes (s : State) (a : Agent) : Prop := s.nextTurn.agent = a ∧ s.agentEnabled a = true

/-- Weak fairness for an agent in a run: a step that stays enabled is eventually taken
(spec/60_exceptions.md R223). -/
def WeaklyFair (a : Agent) (run : Nat → State) : Prop :=
  ∀ n, (∀ m, n ≤ m → (run m).agentEnabled a = true) → ∃ m, n ≤ m ∧ (run m).agentTakes a

/-- No occurrence of MAGIC's four wire bytes starts in `g` at an offset p with p + 4 <= |g|
(spec/41_framer.md R121 (a)). -/
def FreeOfMagic (magic : Word) (g : List Byte) : Prop :=
  ∀ p, p + 4 ≤ g.length → (g.drop p).take 4 ≠ u32Bytes magic

/-- MAGIC's byte string has no border (R121 (b)). -/
def Borderless (magic : Word) : Prop :=
  ∀ k ∈ [1, 2, 3], (u32Bytes magic).take k ≠ (u32Bytes magic).drop (4 - k)

/-- BUF is the part of the stream from HEAD_POS on (spec/10_state.md R22). -/
def State.InStream (s : State) (stream : List Byte) : Prop :=
  s.headPos ≤ stream.length ∧ s.buf = stream.drop s.headPos

/-- The framer is at a frame boundary with nothing buffered and nothing in the engine, the port
open, and the capture port, if it is in use, ready. -/
def State.AtBoundary (s : State) : Prop :=
  s.buf = [] ∧ s.ctrl.en = true ∧ s.runState = .running ∧ s.xfBusy = false
    ∧ (s.ctrl.capEn = true → s.port.capReady = true)

end Sys2Proof.Machine
end

