-- ==== Sys2Proof/Certificates/Slice0/Obligations.lean ====
section
/-! DEFINITION. The statements about FSE, each formalising the rules its docstring names. -/

open Sys2Proof Sys2Proof.Machine

/-! ### Encodings -/

/-- Decoding what the encoder writes gives the operation back, with every operand at every value its
encoding admits, for all 38 operations and every MAGIC and ceiling (30_encoding.md sections 1 to 4). -/
def Obligations.DecodeOfEncodeIsTheInstruction : Prop :=
  ∀ (c : FrameCtx) (i : Instr), WellFormed c i = true → decode c (encode c i) = .ok i

/-- Encoding what was decoded gives the bits back: a beat whole, a bus access whole but for the
wdata of an aligned full read (30_encoding.md R78, R80). That IN_EOS and IN_ERR keep the beat's
ignored in_data as an operand, though R101 and R102 give them none, and that a read drops its wdata,
is the model's choice (log 15). -/
def Obligations.EncodeOfDecodeRestoresTheBits : Prop :=
  (∀ (c : FrameCtx) (b : BitVec 10) (i : Instr), decodeBeat b = .ok i → encode c i = .beat b) ∧
  (∀ (c : FrameCtx) (a : BusAccess), ∃ a' : BusAccess,
    encode c (decodeAccess a) = .access a' ∧ a'.sel = a.sel ∧ a'.lanesOff = a.lanesOff ∧
    (a.sel.getLsbD 19 = true ∨ a.sel.extractLsb' 0 2 ≠ 0#2 ∨ a.lanesOff ≠ 0#4 → a'.wdata = a.wdata))

/-- The match/mask pairs of opcode_table.json's bus rows cover every selector exactly once, and the
decoder picks the row that matches. -/
def Obligations.BusTablePartitionsTheSelectors : Prop :=
  ∀ (sel : BitVec 20) (v : Word),
    (busTable.filter fun p => p.hits sel).map BusPattern.mnemonic = [busMnemonic (decodeAccess ⟨sel, v, 0#4⟩)]

/-- Words written out from the encodings of the spec decode to the operations they stand for. -/
def Obligations.SpecWordsDecode : Prop :=
  decodeBeat 0b0001111111#10 = .ok (.inData 0x7F#8) ∧
  decodeBeat 0b0100000000#10 = .ok (.inEos 0x00#8) ∧
  decodeBeat 0b1000000000#10 = .ok (.inErr 0x00#8) ∧
  decodeBeat 0b1100000000#10 = .error (.reservedBeatKind 0b1100000000#10) ∧
  decodeAccess ⟨0x80000#20, 0x1#32, 0#4⟩ = .wrCtrl 0x1#32 ∧
  decodeAccess ⟨0x40008#20, 0#32, 0#4⟩ = .rdBin 1#15 false ∧
  decodeAccess ⟨0xC0008#20, 5#32, 0#4⟩ = .wrRo 0x40008#19 5#32 ∧
  decodeWindow ⟨0x53505244#32, 65536#32⟩ 8 0x0000000453505244#64 = .frWaitPay 4#32

/-- The ordered checks of R110 on the bytes of BUF and the decision map of R83 on |BUF| and W select
the same operation, for every buffer, MAGIC and ceiling. -/
def Obligations.DecisionMapAgreesWithFrDecide : Prop :=
  ∀ (c : FrameCtx) (buf : List Byte),
    decodeWindow c buf.length (headerWindow buf) = (frDecide buf c.magic c.maxPayload).toInstr

/-! ### Steps -/

/-- A step whose agent presents bits that decode is exec of the decoded operation, after the turn
has begun and the port's handshake. Whose turn it is, and that a step begins with a turn, is the
model's choice (the schedule and the free turns of log 4); the empty schedule is covered. -/
def Obligations.StepRunsTheDecodedOperation : Prop :=
  ∀ (s : State) (w : PortWord) (i : Instr),
    s.beginTurn.portWord s.nextTurn.agent = some w → decode s.beginTurn.frameCtx w = .ok i →
    step s = exec i (s.beginTurn.handshake s.nextTurn.agent)

/-- For each agent's turn: which operation the step runs, and what it adds around exec. The turn
leaves the schedule and sets the capture pins; a beat leaves the port exactly when it is ready; a bus
access always leaves it. (The schedule is the model's, log 4.) -/
def Obligations.StepOfEachAgent : Prop :=
  ∀ (s : State) (ready : Bool) (resp : CapResp) (rest : List Turn),
    (∀ b q i, s.port.sched = ⟨.ing, ready, resp⟩ :: rest → s.port.inQueue = b :: q → decodeBeat b = .ok i →
      step s = exec i { s with port := { s.port with
        sched := rest, capReady := ready, capResp := resp, inQueue := if s.inReady b then q else b :: q } }) ∧
    (∀ a q, s.port.sched = ⟨.host, ready, resp⟩ :: rest → s.port.busQueue = a :: q →
      step s = exec (decodeAccess a) { s with port := { s.port with
        sched := rest, capReady := ready, capResp := resp, busQueue := q } }) ∧
    (s.port.sched = ⟨.frm, ready, resp⟩ :: rest →
      step s = exec s.decision.toInstr { s with port := { s.port with
        sched := rest, capReady := ready, capResp := resp } }) ∧
    (s.port.sched = ⟨.xf, ready, resp⟩ :: rest → s.xfBusy = true →
      step s = exec .xfDone { s with port := { s.port with
        sched := rest, capReady := ready, capResp := resp } }) ∧
    (s.port.sched = ⟨.rst, ready, resp⟩ :: rest →
      step s = exec .reset { s with port := { s.port with
        sched := rest, capReady := ready, capResp := resp } })

/-- A turn whose agent has nothing to do passes: the state of FSE is unchanged. (Log 5.) -/
def Obligations.IdleTurnPasses : Prop :=
  ∀ (s : State) (ready : Bool) (resp : CapResp) (rest : List Turn) (a : Agent),
    s.port.sched = ⟨a, ready, resp⟩ :: rest →
    (a = .ing ∧ s.port.inQueue = [] ∨ a = .host ∧ s.port.busQueue = [] ∨ a = .xf ∧ s.xfBusy = false) →
    step s = .next { s with port := { s.port with sched := rest, capReady := ready, capResp := resp } }

/-- R79: a model refuses a beat with in_kind = 11. -/
def Obligations.ReservedBeatKindIsRefused : Prop :=
  ∀ (s : State) (b : BitVec 10) (q : List (BitVec 10)),
    s.nextTurn.agent = .ing → s.port.inQueue = b :: q → b.extractLsb' 8 2 = 0b11#2 →
    step s = .refused .reservedBeatKind

/-- R180: an access with addr[1:0] not 00, or with a byte enable clear, is BUS_BAD, and no other access
is; BUS_BAD is refused, by exec in every state and by the step whose host presents it. -/
def Obligations.BusBadIsRefused : Prop :=
  (∀ a : BusAccess,
    (decodeAccess a = .busBad a.sel a.wdata a.lanesOff ↔ a.sel.toNat % 4 ≠ 0 ∨ a.lanesOff ≠ 0#4) ∧
    (∀ sel v l, decodeAccess a = .busBad sel v l → sel = a.sel ∧ v = a.wdata ∧ l = a.lanesOff)) ∧
  (∀ (s : State) (sel : BitVec 20) (v : Word) (l : BitVec 4), exec (.busBad sel v l) s = .refused .busContract) ∧
  (∀ (s : State) (a : BusAccess) (q : List BusAccess),
    s.nextTurn.agent = .host → s.port.busQueue = a :: q → (a.sel.toNat % 4 ≠ 0 ∨ a.lanesOff ≠ 0#4) →
    step s = .refused .busContract)

/-- Whatever an aligned full access asks, its step completes: no state refuses it or makes it wait
(R150). -/
def Obligations.AlignedAccessAlwaysCompletes : Prop :=
  ∀ (s : State) (a : BusAccess) (q : List BusAccess),
    s.nextTurn.agent = .host → s.port.busQueue = a :: q → a.sel.toNat % 4 = 0 → a.lanesOff = 0#4 →
    ∃ t, step s = .next t ∧ t.port.busQueue = q

/-! ### Ingress -/

/-- R100: the beat (00, b) is IN_DATA of b, which, when enabled, appends the byte and counts it mod
2^32; nothing else changes. -/
def Obligations.InDataAppendsTheByte : Prop :=
  ∀ (s : State) (b : Byte), decodeBeat (0b00#2 ++ b) = .ok (.inData b) ∧
    (s.ctrl.en = true → s.runState = .running → s.buf.length < 8 + s.params.maxPayloadHw.toNat →
      exec (.inData b) s = .next { s with
        buf := s.buf ++ [b]
        cnt := { s.cnt with bytesIn := s.cnt.bytesIn + 1#32 } })

/-- R101, R102: the beats (01, b) and (10, b) are IN_EOS and IN_ERR, which, when enabled, discard and count BUF, disconnect with their cause
and raise DISC; XF_IN, PUB, VIEW, HEAD_POS, CAP_EN and everything else stay. -/
def Obligations.CloseDisconnectsAndDiscards : Prop :=
  ∀ (s : State) (b : Byte),
    decodeBeat (0b01#2 ++ b) = .ok (.inEos b) ∧ decodeBeat (0b10#2 ++ b) = .ok (.inErr b) ∧
    (s.ctrl.en = true → s.runState = .running →
    (s.decision = .waitHdr ∨ ∃ len, s.decision = .waitPay len) →
    exec (.inEos b) s = .next { s with
      buf := []
      cnt := { s.cnt with discarded := s.cnt.discarded + BitVec.ofNat 32 s.buf.length }
      runState := .disconnected
      discCause := .eos
      events := s.events ||| 0b00010#5 } ∧
    exec (.inErr b) s = .next { s with
      buf := []
      cnt := { s.cnt with discarded := s.cnt.discarded + BitVec.ofNat 32 s.buf.length }
      runState := .disconnected
      discCause := .err
      events := s.events ||| 0b00010#5 })

/-- in_ready for a beat of each kind (40_ingress.md R103). -/
def Obligations.InReadyFollowsTheKind : Prop :=
  ∀ (s : State) (b : BitVec 10),
    (b.extractLsb' 8 2 = 0b00#2 →
      (s.inReady b = true ↔ s.ctrl.en = true ∧ s.runState = .running ∧ s.buf.length < s.params.bufCap)) ∧
    (b.extractLsb' 8 2 = 0b01#2 ∨ b.extractLsb' 8 2 = 0b10#2 →
      (s.inReady b = true ↔ s.ctrl.en = true ∧ s.runState = .running ∧
        (s.decision = .waitHdr ∨ ∃ len, s.decision = .waitPay len)))

/-- A beat that is not ready stays on the port and changes nothing of FSE, whatever its kind; among
them every beat offered with EN = 0 or while DISCONNECTED. (Log 5: the turn passes.) -/
def Obligations.UnreadyBeatStaysOnThePort : Prop :=
  ∀ (s : State) (ready : Bool) (resp : CapResp) (rest : List Turn) (b : BitVec 10) (q : List (BitVec 10)),
    s.port.sched = ⟨.ing, ready, resp⟩ :: rest → s.port.inQueue = b :: q → b.extractLsb' 8 2 ≠ 0b11#2 →
    (s.inReady b = false →
      step s = .next { s with port := { s.port with sched := rest, capReady := ready, capResp := resp } }) ∧
    (s.ctrl.en = false ∨ s.runState = .disconnected → s.inReady b = false)

/-- R104: with EN = 0 no beat of any kind is taken; what the framer and the engine may do, and do,
does not depend on EN; a CTRL write that only clears EN loses no byte. -/
def Obligations.EnGatesIngressOnly : Prop :=
  (∀ (s : State) (b : BitVec 10), s.ctrl.en = false → s.inReady b = false) ∧
  (∀ (s : State) (en : Bool), (s.setCtrl en s.ctrl.capEn).frmEnabled = s.frmEnabled) ∧
  (∀ (s t : State) (en : Bool), exec s.decision.toInstr s = .next t →
    exec s.decision.toInstr (s.setCtrl en s.ctrl.capEn) = .next (t.setCtrl en t.ctrl.capEn)) ∧
  (∀ (s t : State) (en : Bool), exec .xfDone s = .next t →
    exec .xfDone (s.setCtrl en s.ctrl.capEn) = .next (t.setCtrl en t.ctrl.capEn)) ∧
  (∀ (s : State) (v : Word), v.getLsbD 0 = false → v.getLsbD 2 = false →
    ∃ t, exec (.wrCtrl v) s = .next t ∧ t.buf = s.buf)

/-! ### Framer -/

/-- The two waits have no effect (41_framer.md section 2, R112, R115; that exec answers the same
state is the model's choice, log 15). -/
def Obligations.FramerWaitsChangeNothing : Prop :=
  ∀ (s : State) (len : Word), exec .frWaitHdr s = .next s ∧ exec (.frWaitPay len) s = .next s

/-- R113: with 8 bytes or more and no MAGIC at the head the decision is FR_DROP1, which drops one byte, counts it and raises RESYNC; nothing else changes. -/
def Obligations.FrDrop1DropsOneByte : Prop :=
  ∀ s : State, 8 ≤ s.buf.length → u32le s.buf 0 ≠ s.params.magic →
    s.decision = .drop1 ∧ FrDecision.drop1.toInstr = .frDrop1 ∧
    exec .frDrop1 s = .next { s with
      buf := s.buf.drop 1
      headPos := s.headPos + 1
      cnt := { s.cnt with resyncDrops := s.cnt.resyncDrops + 1#32 }
      events := s.events ||| 0b10000#5 }

/-- R114: with MAGIC at the head and a length above the ceiling the decision is FR_DROP4, which drops the 4 magic bytes, counts the reject and raises LENREJ; the comparison is
strict and unsigned, for every u32 length; nothing else changes. -/
def Obligations.FrDrop4DropsTheMagic : Prop :=
  ∀ s : State, 8 ≤ s.buf.length → u32le s.buf 0 = s.params.magic →
    s.maxPayload.toNat < (u32le s.buf 4).toNat →
    s.decision = .drop4 (u32le s.buf 4) ∧
    (∀ len : Word, (FrDecision.drop4 len).toInstr = .frDrop4 len) ∧
    exec (.frDrop4 (u32le s.buf 4)) s = .next { s with
      buf := s.buf.drop 4
      headPos := s.headPos + 4
      cnt := { s.cnt with lenRejects := s.cnt.lenRejects + 1#32 }
      events := s.events ||| 0b01000#5 }

/-- R116: with a complete frame at the head the decision is FR_EMIT. Enabled, it hands the payload to the engine, removes the frame and counts it; with CAP_EN = 1
it also sends the payload to the sink, and a FAIL answer is counted and raised but does not stop the
emit; nothing else changes. With the engine busy, or the capture port in use not ready, it is held:
STATUS.HELD reads 1 and the framer has no enabled step. -/
def Obligations.FrEmitHandsThePayloadOn : Prop :=
  ∀ s : State, 8 ≤ s.buf.length → u32le s.buf 0 = s.params.magic →
    (u32le s.buf 4).toNat ≤ s.maxPayload.toNat → 8 + (u32le s.buf 4).toNat ≤ s.buf.length →
    s.decision = .emit (u32le s.buf 4) ∧ (∀ len : Word, (FrDecision.emit len).toInstr = .frEmit len) ∧
    (s.xfBusy = true ∨ s.ctrl.capEn = true ∧ s.port.capReady = false →
      s.statusWord.getLsbD 6 = true ∧ s.frmEnabled = false) ∧
    (s.xfBusy = false → (s.ctrl.capEn = false ∨ s.port.capReady = true) →
    exec (.frEmit (u32le s.buf 4)) s = .next { s with
      xfIn := some ((s.buf.drop 8).take (u32le s.buf 4).toNat)
      xfBusy := true
      buf := s.buf.drop (8 + (u32le s.buf 4).toNat)
      headPos := s.headPos + (8 + (u32le s.buf 4).toNat)
      cnt := { s.cnt with
        framesOk := s.cnt.framesOk + 1#32
        capErrs := if s.ctrl.capEn = true ∧ s.port.capResp = .fail then s.cnt.capErrs + 1#32 else s.cnt.capErrs }
      events := if s.ctrl.capEn = true ∧ s.port.capResp = .fail then s.events ||| 0b00100#5 else s.events
      port := { s.port with
        capLog := if s.ctrl.capEn then
            s.port.capLog ++ [⟨(u32le s.buf 4).toNat, (s.buf.drop 8).take (u32le s.buf 4).toNat⟩]
          else s.port.capLog } })

/-- An operation that has no step changes nothing: a framer operation that is not decided, an FR_EMIT
that is held, an XF_DONE of an idle engine. (Log 5.) -/
def Obligations.OperationsWithoutAStepChangeNothing : Prop :=
  ∀ (s : State) (len : Word),
    (s.decision ≠ .drop1 → exec .frDrop1 s = .next s) ∧
    (s.decision ≠ .drop4 len → exec (.frDrop4 len) s = .next s) ∧
    (s.decision ≠ .emit len → exec (.frEmit len) s = .next s) ∧
    (s.xfBusy = true ∨ s.ctrl.capEn = true ∧ s.port.capReady = false → exec (.frEmit len) s = .next s) ∧
    (s.xfBusy = false → exec .xfDone s = .next s)

/-- R22: BUF stays the stream from HEAD_POS on. IN_DATA extends the stream by its byte; FR_DROP1,
FR_DROP4 and FR_EMIT move HEAD_POS by 1, 4 and 8 + len over the same stream; RESTART and reset start
a new stream at 0; disconnects leave HEAD_POS; no register shows it. -/
def Obligations.HeadPosTracksTheStream : Prop :=
  (∀ (s t : State) (stream : List Byte) (b : Byte), s.InStream stream → s.dataReady = true →
    exec (.inData b) s = .next t → t.InStream (stream ++ [b]) ∧ t.headPos = s.headPos) ∧
  (∀ (s t : State) (stream : List Byte), s.InStream stream → exec s.decision.toInstr s = .next t →
    t.InStream stream ∧
    (s.decision = .drop1 → t.headPos = s.headPos + 1) ∧
    (∀ len, s.decision = .drop4 len → t.headPos = s.headPos + 4) ∧
    (∀ len, s.decision = .emit len → s.held = false → t.headPos = s.headPos + (8 + len.toNat)) ∧
    (s.frmEnabled = false → t.headPos = s.headPos)) ∧
  (∀ (s : State) (v : Word), v.getLsbD 2 = true →
    ∃ t, exec (.wrCtrl v) s = .next t ∧ t.headPos = 0 ∧ t.InStream []) ∧
  (∀ s : State, ∃ t, exec .reset s = .next t ∧ t.headPos = 0 ∧ t.InStream []) ∧
  (∀ (s t : State) (b : Byte), exec (.inEos b) s = .next t ∨ exec (.inErr b) s = .next t →
    t.headPos = s.headPos) ∧
  (∀ (s : State) (n : Nat) (addr : BitVec 19), ({ s with headPos := n } : State).memRead addr = s.memRead addr)

/-- Each enabled framer operation removes 1, 4 or 8 + len bytes (41_framer.md section 3, R117). That
exec of the decided operation answers the same state when the framer has no enabled step is the
model's choice (log 5). -/
def Obligations.FramerStepRemovesBytes : Prop :=
  ∀ s : State,
    (s.frmEnabled = true → ∃ t k, exec s.decision.toInstr s = .next t ∧ t.buf = s.buf.drop k ∧
      k ≤ s.buf.length ∧ (k = 1 ∨ k = 4 ∨ ∃ len : Word, s.decision = .emit len ∧ k = 8 + len.toNat)) ∧
    (s.frmEnabled = false → exec s.decision.toInstr s = .next s)

/-- With no further input the framer is quiescent or held after at most |BUF| of its steps
(41_framer.md section 3, R117). -/
def Obligations.FramerStopsWithinBufLength : Prop :=
  ∀ s : State, ∃ n, n ≤ s.buf.length ∧ ((s.frmRun n).quiescent = true ∨ (s.frmRun n).held = true)

/-- A full buffer is never quiescent (41_framer.md section 3, R123). -/
def Obligations.FullBufferIsNotQuiescent : Prop :=
  ∀ s : State, s.maxPayload.toNat ≤ s.params.maxPayloadHw.toNat → s.buf.length = s.params.bufCap →
    s.quiescent = false

/-- A quiescent framer has no complete, magic-valid frame within the ceiling at the head of BUF
(41_framer.md section 3, R126). -/
def Obligations.QuiescentHeadHoldsNoFrame : Prop :=
  ∀ (s : State) (payload rest : List Byte), payload.length ≤ s.maxPayload.toNat →
    s.buf = frameBytes s.params.magic payload ++ rest → s.quiescent = false

/-- R118: the ceiling is read at every decision. After a MAX_PAYLOAD write the decision is the one
the new ceiling gives; a frame in FR_WAIT_PAY whose len is above it becomes FR_DROP4; a header that
FR_DROP4 rejected is gone, and no later ceiling brings it back. -/
def Obligations.CeilingIsReadAtEveryDecision : Prop :=
  (∀ (s : State) (v : Word), ∃ t, exec (.wrMaxPayload v) s = .next t ∧
    t.decision = frDecide s.buf s.params.magic t.maxPayload) ∧
  (∀ (s : State) (len v : Word), s.decision = .waitPay len → v.toNat < len.toNat →
    v.toNat ≤ s.params.maxPayloadHw.toNat →
    ∃ t, exec (.wrMaxPayload v) s = .next t ∧ t.decision = .drop4 len ∧ t.buf = s.buf) ∧
  (∀ (s : State) (len v : Word), s.decision = .drop4 len →
    ∃ t u, exec (.frDrop4 len) s = .next t ∧ exec (.wrMaxPayload v) t = .next u ∧ u.buf = s.buf.drop 4)

/-! ### Runs of the data agents -/

/-- Chunk and schedule invariance (41_framer.md section 3 R119; 40_ingress.md R106; 20_memory.md
section 5): two interleavings of ingress, framer and engine steps over the same bytes, each run until
all bytes are taken and FSE is settled, end in the same state. The capture sink's pins are the same
throughout. -/
def Obligations.ScheduleDoesNotMatter : Prop :=
  ∀ (s t₁ t₂ : State) (bytes : List Byte), SettlesAt s bytes t₁ → SettlesAt s bytes t₂ → t₁ = t₂

/-- From every state FSE reaches a settled state by framer and engine steps alone; the engine is then
idle, and with CAP_EN = 0 the framer is quiescent (60_exceptions.md section 7, R224). -/
def Obligations.FseSettles : Prop :=
  ∀ s : State, ∃ t, SettlesAt s [] t ∧ t.xfBusy = false ∧ (s.ctrl.capEn = false → t.quiescent = true)

/-- Valid frames in any chunking (41_framer.md section 3, R120): from a frame boundary, a stream of
valid frames can be taken, and every settled end shows as many frames emitted and transformed as
there are payloads, no byte dropped, PUB the whole record of the last payload (42_transform.md
section 2), and, with CAP_EN = 1, the payloads themselves in order in the record of capture messages
(log 9). -/
def Obligations.ValidFramesAreAllDelivered : Prop :=
  ∀ (s : State) (payloads : List (List Byte)),
    s.AtBoundary → s.maxPayload.toNat ≤ s.params.maxPayloadHw.toNat →
    (∀ p ∈ payloads, p.length ≤ s.maxPayload.toNat) →
    ∃ t, SettlesAt s (payloads.flatMap (frameBytes s.params.magic)) t ∧
      (∀ t', SettlesAt s (payloads.flatMap (frameBytes s.params.magic)) t' → t' = t) ∧
      t.buf = [] ∧ t.xfBusy = false ∧
      t.headPos = s.headPos + (payloads.flatMap (frameBytes s.params.magic)).length ∧
      t.cnt.framesOk = s.cnt.framesOk + BitVec.ofNat 32 payloads.length ∧
      t.cnt.spectra = s.cnt.spectra + BitVec.ofNat 32 payloads.length ∧
      t.cnt.resyncDrops = s.cnt.resyncDrops ∧ t.cnt.lenRejects = s.cnt.lenRejects ∧
      (payloads = [] → t.pub = s.pub) ∧
      (∀ p, payloads.getLast? = some p → t.pub = ⟨true, s.pub.seq + BitVec.ofNat 32 payloads.length,
        p.length / 2, spectrumBins s.params p⟩) ∧
      t.port.capLog = s.port.capLog ++
        (if s.ctrl.capEn then payloads.map (fun p => ⟨p.length, p⟩) else [])

/-- Garbage before a valid frame (41_framer.md section 3, R121): under conditions (a) and (b) exactly
the garbage is dropped, one byte at a time, and the frame behind it is emitted and transformed into
PUB (42_transform.md section 2, R135). -/
def Obligations.GarbageIsDroppedExactly : Prop :=
  ∀ (s : State) (garbage payload : List Byte),
    s.AtBoundary → s.maxPayload.toNat ≤ s.params.maxPayloadHw.toNat →
    payload.length ≤ s.maxPayload.toNat → FreeOfMagic s.params.magic garbage → Borderless s.params.magic →
    ∃ t, SettlesAt s (garbage ++ frameBytes s.params.magic payload) t ∧
      (∀ t', SettlesAt s (garbage ++ frameBytes s.params.magic payload) t' → t' = t) ∧
      t.buf = [] ∧ t.headPos = s.headPos + (garbage.length + 8 + payload.length) ∧
      t.cnt.resyncDrops = s.cnt.resyncDrops + BitVec.ofNat 32 garbage.length ∧
      t.cnt.lenRejects = s.cnt.lenRejects ∧ t.cnt.framesOk = s.cnt.framesOk + 1#32 ∧
      t.pub = ⟨true, s.pub.seq + 1#32, payload.length / 2, spectrumBins s.params payload⟩

/-! ### Spectrum engine -/

/-- R135: XF_DONE publishes the spectrum of the payload in XF_IN in one replacement of PUB, counts it
(and an odd length), raises NEWSPEC and leaves the engine idle; nothing else changes. -/
def Obligations.XfDonePublishesTheSpectrum : Prop :=
  ∀ (s : State) (payload : List Byte), s.xfBusy = true → s.xfIn = some payload →
    exec .xfDone s = .next { s with
      pub := ⟨true, s.pub.seq + 1#32, payload.length / 2,
        (List.range (payload.length / 2)).map (dbNum s.params (samples payload))⟩
      cnt := { s.cnt with
        spectra := s.cnt.spectra + 1#32
        oddTrunc := if payload.length % 2 = 1 then s.cnt.oddTrunc + 1#32 else s.cnt.oddTrunc }
      events := s.events ||| 0b00001#5
      xfBusy := false
      xfIn := none }

/-- R131: a payload of L bytes gives floor(L / 2) samples; sample n has I from byte 2n and Q from byte
2n + 1, each read as a signed byte in -128..127; a last odd byte forms none. -/
def Obligations.SamplesPairSignedBytes : Prop :=
  ∀ payload : List Byte,
    (samples payload).length = payload.length / 2 ∧
    (∀ n, n < payload.length / 2 →
      (samples payload)[n]? = some ⟨(payload.getD (2 * n) 0#8).toInt, (payload.getD (2 * n + 1) 0#8).toInt⟩) ∧
    (∀ x ∈ samples payload, x.InRange)

/-- P1, P2 and P3 of 42_transform.md section 1, R134. P1, payloads with the same sample vector give
bit-identical bins in states that differ in anything but the build; P2, the all-zero vector gives the
word nearest to 20·log10(EPS) in every bin, -120.0 for the default build; P3, every bin is finite and
within TOL_DB of the exact D[k]. The number a word names is IEEE 754's (log 19, PRESUMED); the engine
and TOL_DB are the model's free value, which carries P3 by its type (log 3). -/
def Obligations.DbNumHasItsThreeProperties : Prop :=
  (∀ (s₁ s₂ t₁ t₂ : State) (p₁ p₂ : List Byte),
    s₁.params = s₂.params → s₁.xfBusy = true → s₂.xfBusy = true → s₁.xfIn = some p₁ → s₂.xfIn = some p₂ →
    samples p₁ = samples p₂ → exec .xfDone s₁ = .next t₁ → exec .xfDone s₂ = .next t₂ →
    t₁.pub.bins = t₂.pub.bins) ∧
  (∀ (s : State) (payload : List Byte), s.params.Legal → s.xfBusy = true → s.xfIn = some payload →
    (∀ x ∈ samples payload, x = ⟨0, 0⟩) →
    ∃ t w, exec .xfDone s = .next t ∧ t.pub.bins = List.replicate (payload.length / 2) w ∧
      IsNearest64 w (20 * Real.logb 10 s.params.eps.value) ∧
      (s.params = {} → w = 0xC05E000000000000#64)) ∧
  (∀ (s : State) (payload : List Byte), s.params.Legal → s.xfBusy = true → s.xfIn = some payload →
    payload.length ≤ s.params.maxPayloadHw.toNat →
    ∃ t, exec .xfDone s = .next t ∧ ∀ k w d, k < payload.length / 2 → t.pub.bins[k]? = some w →
      IsExactDb s.params.eps.value (samples payload) k d →
      finite64 w = true ∧ |(value64 w : ℝ) - d| ≤ Config.engine.tolDb s.params.eps)

/-- A trailing odd byte does not change the spectrum (42_transform.md section 3, R137): XF_DONE of an
even payload and of the same payload with one more byte end in states that differ in ODD_TRUNC alone,
which the odd one counts (42_transform.md section 2, R135). -/
def Obligations.OddByteDoesNotChangeTheSpectrum : Prop :=
  ∀ (s : State) (payload : List Byte) (b : Byte), payload.length % 2 = 0 → s.xfBusy = true →
    ∃ t₁ t₂, exec .xfDone { s with xfIn := some payload } = .next t₁ ∧
      exec .xfDone { s with xfIn := some (payload ++ [b]) } = .next t₂ ∧
      t₁.cnt.oddTrunc = s.cnt.oddTrunc ∧
      t₂ = { t₁ with cnt := { t₁.cnt with oddTrunc := s.cnt.oddTrunc + 1#32 } }

/-- With EPS = 10^-6 every published bin lies in [-120 - TOL_DB, 135.5 + TOL_DB] (42_transform.md
section 1 R133, R134 P3 and section 3 R140). The number a word names is IEEE 754's (log 19, PRESUMED);
TOL_DB is the tolerance of the model's free engine (log 3). -/
def Obligations.BinsLieInTheDecibelRange : Prop :=
  ∀ (s : State) (payload : List Byte), s.params.Legal → s.params.eps.value = 1 / 1000000 → s.xfBusy = true →
    s.xfIn = some payload → payload.length ≤ s.params.maxPayloadHw.toNat →
    ∃ t, exec .xfDone s = .next t ∧ ∀ w ∈ t.pub.bins,
      -120 - Config.engine.tolDb s.params.eps ≤ (value64 w : ℝ) ∧
      (value64 w : ℝ) ≤ 135.5 + Config.engine.tolDb s.params.eps

/-- The exact bins of the sizes N = 1, 2 and 4 are those of Gaussian integers (42_transform.md
section 3, R141): D[k] = 20·log10(sqrt(m) + EPS) with m = |X[k]|². -/
def Obligations.SmallSizesAreExact : Prop :=
  ∀ (eps : ℝ) (a b c e : Sample) (d : ℝ),
    let db := fun re im : Int =>
      20 * Real.logb 10 (Real.sqrt ((re ^ 2 + im ^ 2 : Int) : ℝ) + eps)
    (IsExactDb eps [a] 0 d ↔ d = db a.re a.im) ∧
    (IsExactDb eps [a, b] 0 d ↔ d = db (a.re + b.re) (a.im + b.im)) ∧
    (IsExactDb eps [a, b] 1 d ↔ d = db (a.re - b.re) (a.im - b.im)) ∧
    (IsExactDb eps [a, b, c, e] 0 d ↔ d = db (a.re + b.re + c.re + e.re) (a.im + b.im + c.im + e.im)) ∧
    (IsExactDb eps [a, b, c, e] 1 d ↔ d = db (a.re + b.im - c.re - e.im) (a.im - b.re - c.im + e.re)) ∧
    (IsExactDb eps [a, b, c, e] 2 d ↔ d = db (a.re - b.re + c.re - e.re) (a.im - b.im + c.im - e.im)) ∧
    (IsExactDb eps [a, b, c, e] 3 d ↔ d = db (a.re - b.im - c.re + e.im) (a.im + b.re - c.im - e.re))

/-! ### Host reads -/

/-- R156: T = 0x00004 is RD_STATUS, which returns the eight fields of R34 and 0 above them, and changes nothing else. -/
def Obligations.RdStatusReturnsTheFields : Prop :=
  (∀ d : Word, decodeAccess ⟨0x00004#20, d, 0#4⟩ = .rdStatus) ∧
  ∀ s : State, ∃ w : Word, exec .rdStatus s = .next { s with port := { s.port with busRdata := w } } ∧
    (w.getLsbD 0 = true ↔ s.runState = .disconnected) ∧
    (w.extractLsb' 1 2 = match s.discCause with | .none => 0#2 | .eos => 1#2 | .err => 2#2) ∧
    w.getLsbD 3 = s.xfBusy ∧ w.getLsbD 4 = s.pub.valid ∧ w.getLsbD 5 = s.view.valid ∧
    (w.getLsbD 6 = true ↔ (∃ len, s.decision = .emit len) ∧
      (s.xfBusy = true ∨ s.ctrl.capEn = true ∧ s.port.capReady = false)) ∧
    (w.getLsbD 7 = true ↔ s.decision = .waitHdr ∨ ∃ len, s.decision = .waitPay len) ∧
    w.extractLsb' 8 24 = 0#24

/-- R151, R157, R159, R161, R162, R164, R166 to R169: the reads of CTRL, EVENTS, IRQ_EN, MAGIC,
MAX_PAYLOAD, BUF_LEVEL and of the sequence numbers and bin counts of PUB and VIEW return those
values, zero above their fields, and change nothing else; each at its own selector T. -/
def Obligations.RegisterReadsReturnTheRegisters : Prop :=
  (∀ d : Word,
    decodeAccess ⟨0x00000#20, d, 0#4⟩ = .rdCtrl ∧ decodeAccess ⟨0x00008#20, d, 0#4⟩ = .rdEvents ∧
    decodeAccess ⟨0x0000C#20, d, 0#4⟩ = .rdIrqEn ∧ decodeAccess ⟨0x00010#20, d, 0#4⟩ = .rdMagic ∧
    decodeAccess ⟨0x00014#20, d, 0#4⟩ = .rdMaxPayload ∧ decodeAccess ⟨0x00018#20, d, 0#4⟩ = .rdBufLevel ∧
    decodeAccess ⟨0x0001C#20, d, 0#4⟩ = .rdPubSeq ∧ decodeAccess ⟨0x00020#20, d, 0#4⟩ = .rdPubNbins ∧
    decodeAccess ⟨0x00024#20, d, 0#4⟩ = .rdViewSeq ∧ decodeAccess ⟨0x00028#20, d, 0#4⟩ = .rdViewNbins) ∧
  ∀ s : State,
    exec .rdCtrl s = .next { s with port := { s.port with
      busRdata := BitVec.ofNat 32 (s.ctrl.en.toNat + 2 * s.ctrl.capEn.toNat) } } ∧
    exec .rdEvents s = .next { s with port := { s.port with busRdata := s.events.zeroExtend 32 } } ∧
    exec .rdIrqEn s = .next { s with port := { s.port with busRdata := s.irqEn.zeroExtend 32 } } ∧
    exec .rdMagic s = .next { s with port := { s.port with busRdata := s.params.magic } } ∧
    exec .rdMaxPayload s = .next { s with port := { s.port with busRdata := s.maxPayload } } ∧
    exec .rdBufLevel s = .next { s with port := { s.port with busRdata := BitVec.ofNat 32 s.buf.length } } ∧
    exec .rdPubSeq s = .next { s with port := { s.port with busRdata := s.pub.seq } } ∧
    exec .rdPubNbins s = .next { s with port := { s.port with busRdata := BitVec.ofNat 32 s.pub.nbins } } ∧
    exec .rdViewSeq s = .next { s with port := { s.port with busRdata := s.view.seq } } ∧
    exec .rdViewNbins s = .next { s with port := { s.port with busRdata := BitVec.ofNat 32 s.view.nbins } }

/-- R170 to R177: each counter read, at its own selector T, returns its counter and clears nothing. -/
def Obligations.CounterReadsReturnTheCounters : Prop :=
  (∀ d : Word,
    decodeAccess ⟨0x00030#20, d, 0#4⟩ = .rdBytesIn ∧ decodeAccess ⟨0x00034#20, d, 0#4⟩ = .rdResyncDrops ∧
    decodeAccess ⟨0x00038#20, d, 0#4⟩ = .rdLenRejects ∧ decodeAccess ⟨0x0003C#20, d, 0#4⟩ = .rdFramesOk ∧
    decodeAccess ⟨0x00040#20, d, 0#4⟩ = .rdDiscarded ∧ decodeAccess ⟨0x00044#20, d, 0#4⟩ = .rdCapErrs ∧
    decodeAccess ⟨0x00048#20, d, 0#4⟩ = .rdSpectra ∧ decodeAccess ⟨0x0004C#20, d, 0#4⟩ = .rdOddTrunc) ∧
  ∀ s : State,
    exec .rdBytesIn s = .next { s with port := { s.port with busRdata := s.cnt.bytesIn } } ∧
    exec .rdResyncDrops s = .next { s with port := { s.port with busRdata := s.cnt.resyncDrops } } ∧
    exec .rdLenRejects s = .next { s with port := { s.port with busRdata := s.cnt.lenRejects } } ∧
    exec .rdFramesOk s = .next { s with port := { s.port with busRdata := s.cnt.framesOk } } ∧
    exec .rdDiscarded s = .next { s with port := { s.port with busRdata := s.cnt.discarded } } ∧
    exec .rdCapErrs s = .next { s with port := { s.port with busRdata := s.cnt.capErrs } } ∧
    exec .rdSpectra s = .next { s with port := { s.port with busRdata := s.cnt.spectra } } ∧
    exec .rdOddTrunc s = .next { s with port := { s.port with busRdata := s.cnt.oddTrunc } }

/-- R165: RD_BIN returns the half of VIEW's bin k that a[2] selects, 0 for k at or past nbins; from
VIEW only; and changes nothing else. `a` is the byte address 0x40000 + 8k + 4·half. -/
def Obligations.RdBinReturnsHalfOfAViewBin : Prop :=
  ∀ (s : State) (k : Nat) (high : Bool), k < 32768 → s.view.bins.length = s.view.nbins →
    let a := BitVec.ofNat 19 (0x40000 + 8 * k + (if high then 4 else 0))
    decodeAccess (readAccess a) = .rdBin (BitVec.ofNat 15 k) high ∧
    (∀ w, s.view.bins[k]? = some w →
      exec (decodeAccess (readAccess a)) s = .next { s with port := { s.port with
        busRdata := BitVec.ofNat 32 (if high then w.toNat / 2 ^ 32 else w.toNat) } }) ∧
    (s.view.nbins ≤ k →
      exec (decodeAccess (readAccess a)) s = .next { s with port := { s.port with busRdata := 0#32 } })

/-- Every aligned read, at every one of the 2^17 word addresses, returns what the register
map holds there and changes nothing else (20_memory.md section 4 R58, 10_state.md section 3 R30). -/
def Obligations.EveryReadReturnsTheRegisterMap : Prop :=
  ∀ (s : State) (addr : BitVec 19), addr.toNat % 4 = 0 →
    exec (decodeAccess (readAccess addr)) s = .next { s with port := { s.port with busRdata := s.memRead addr } }

/-- R178, R179: writes to read-only and reserved addresses change nothing; reads of reserved
addresses return 0. -/
def Obligations.ReadOnlyAndReservedSpace : Prop :=
  ∀ (s : State) (addr : BitVec 19) (v : Word),
    (exec (.wrRo addr v) s = .next s ∧ exec (.wrRsvd addr v) s = .next s ∧
      exec (.rdRsvd addr) s = .next { s with port := { s.port with busRdata := 0#32 } }) ∧
    (readOnlyAddr addr = true → decodeAccess (writeAccess addr v) = .wrRo addr v) ∧
    (reservedAddr addr = true → decodeAccess (writeAccess addr v) = .wrRsvd addr v ∧
      decodeAccess (readAccess addr) = .rdRsvd addr)

/-! ### Host writes -/

/-- R152 to R155: T = 0x80000 is WR_CTRL, which sets EN and CAP_EN, then RESTART, SNAP and CLR_CNT act in this order, in
one step; bits 31:5 are ignored; nothing else changes. -/
def Obligations.WrCtrlActsInOrder : Prop :=
  ∀ (s : State) (v : Word), decodeAccess ⟨0x80000#20, v, 0#4⟩ = .wrCtrl v ∧
    exec (.wrCtrl v) s = .next { s with
      ctrl := ⟨v.getLsbD 0, v.getLsbD 1⟩
      buf := if v.getLsbD 2 then [] else s.buf
      headPos := if v.getLsbD 2 then 0 else s.headPos
      runState := if v.getLsbD 2 then .running else s.runState
      discCause := if v.getLsbD 2 then .none else s.discCause
      view := if v.getLsbD 3 then s.pub else s.view
      cnt := if v.getLsbD 4 then ⟨0#32, 0#32, 0#32, 0#32, 0#32, 0#32, 0#32, 0#32⟩
        else if v.getLsbD 2 then { s.cnt with discarded := s.cnt.discarded + BitVec.ofNat 32 s.buf.length }
        else s.cnt }

/-- R158, R160, R163, at T = 0x80008, 0x8000C and 0x80014: WR_EVENTS clears the bits written 1, WR_IRQ_EN stores bits 4:0, WR_MAX_PAYLOAD
stores min(v, MAX_PAYLOAD_HW); nothing else changes. -/
def Obligations.RegisterWritesStoreTheirFields : Prop :=
  ∀ (s : State) (v : Word),
    decodeAccess ⟨0x80008#20, v, 0#4⟩ = .wrEvents v ∧ decodeAccess ⟨0x8000C#20, v, 0#4⟩ = .wrIrqEn v ∧
    decodeAccess ⟨0x80014#20, v, 0#4⟩ = .wrMaxPayload v ∧
    exec (.wrEvents v) s = .next { s with events := s.events &&& ~~~(v.setWidth 5) } ∧
    exec (.wrIrqEn v) s = .next { s with irqEn := v.setWidth 5 } ∧
    (∃ m : Word, m.toNat = min v.toNat s.params.maxPayloadHw.toNat ∧
      exec (.wrMaxPayload v) s = .next { s with maxPayload := m })

/-- Every aligned write, at every word address, is the write of the register map: CTRL, EVENTS, IRQ_EN
and MAX_PAYLOAD take it, every other address ignores it (10_state.md section 3, R30, R31). -/
def Obligations.EveryWriteFollowsTheRegisterMap : Prop :=
  ∀ (s : State) (addr : BitVec 19) (v : Word), addr.toNat % 4 = 0 →
    exec (decodeAccess (writeAccess addr v)) s = .next (s.memWrite addr v)

/-- A write leaves every other word of the register space as it was: WR_EVENTS and WR_IRQ_EN all but
their own, WR_MAX_PAYLOAD all but its own and STATUS, WR_RO and WR_RSVD all. -/
def Obligations.WritesLeaveOtherWordsAlone : Prop :=
  ∀ (s t : State) (v : Word) (a addr : BitVec 19),
    (exec (.wrEvents v) s = .next t → addr ≠ 0x008#19 → t.memRead addr = s.memRead addr) ∧
    (exec (.wrIrqEn v) s = .next t → addr ≠ 0x00C#19 → t.memRead addr = s.memRead addr) ∧
    (exec (.wrMaxPayload v) s = .next t → addr ≠ 0x014#19 → addr ≠ 0x004#19 → t.memRead addr = s.memRead addr) ∧
    (exec (.wrRo a v) s = .next t → t.memRead addr = s.memRead addr) ∧
    (exec (.wrRsvd a v) s = .next t → t.memRead addr = s.memRead addr)

/-! ### Events, interrupt, mode, slots: rules over all operations -/

/-- R35: an EVENTS bit is cleared only by a host write of 1 to it or by reset, and set only by the
operations its row names; raising an event sets its bit; bits 31:5 read 0. -/
def Obligations.EventsAreSticky : Prop :=
  State.reset.events = 0#5 ∧
  (∀ (s : State) (e : Event), (s.raise e).events = s.events ||| e.bit) ∧
  (∀ s : State, (s.memRead 0x008#19).toNat = s.events.toNat) ∧
  ∀ (i : Instr) (s t : State) (e : Nat), exec i s = .next t → e < 5 →
    (s.events.getLsbD e = true → t.events.getLsbD e = false →
      (∃ v, i = .wrEvents v ∧ v.getLsbD e = true) ∨ i = .reset) ∧
    (s.events.getLsbD e = false → t.events.getLsbD e = true →
      (e = 0 ∧ i = .xfDone) ∨ (e = 1 ∧ ∃ b, i = .inEos b ∨ i = .inErr b) ∨
      (e = 2 ∧ ∃ len, i = .frEmit len ∧ s.ctrl.capEn = true ∧ s.port.capResp = .fail) ∨
      (e = 3 ∧ ∃ len, i = .frDrop4 len) ∨ (e = 4 ∧ i = .frDrop1))

/-- One step raises at most one event (60_exceptions.md section 3, R210): at most one EVENTS bit is
set that was clear. -/
def Obligations.OneStepRaisesAtMostOneEvent : Prop :=
  ∀ (s t : State) (e f : Nat), step s = .next t →
    s.events.getLsbD e = false → t.events.getLsbD e = true →
    s.events.getLsbD f = false → t.events.getLsbD f = true → e = f

/-- R43, R209: irq is the OR of the enabled event bits; enabling a source whose bit is set raises irq
at once, and clearing the last enabled bit drops it; IRQ_EN masks nothing else: but for IRQ_EN itself
and the word RD_IRQ_EN returns, every operation does the same whatever IRQ_EN holds. -/
def Obligations.IrqIsTheOrOfEnabledEvents : Prop :=
  (∀ s : State, s.irq = true ↔ ∃ e, e < 5 ∧ s.events.getLsbD e = true ∧ s.irqEn.getLsbD e = true) ∧
  (∀ (s : State) (v : Word), ∃ t, exec (.wrIrqEn v) s = .next t ∧
    (t.irq = true ↔ ∃ e, e < 5 ∧ s.events.getLsbD e = true ∧ v.getLsbD e = true)) ∧
  (∀ (s : State) (v : Word), ∃ t, exec (.wrEvents v) s = .next t ∧
    (t.irq = true ↔ ∃ e, e < 5 ∧ s.events.getLsbD e = true ∧ v.getLsbD e = false ∧ s.irqEn.getLsbD e = true)) ∧
  State.reset.irqEn = 0#5 ∧
  (∀ (i : Instr) (s t : State) (m : BitVec 5), exec i s = .next t → i ≠ .rdIrqEn →
    ∃ m', exec i { s with irqEn := m } = .next { t with irqEn := m' })

/-- R23: IN_EOS and IN_ERR alone disconnect; only CTRL.RESTART and reset return to RUNNING; the reset
value is RUNNING; STATUS.DISC shows it. -/
def Obligations.OnlyRestartOrResetReconnects : Prop :=
  (∀ (i : Instr) (s t : State), exec i s = .next t →
    (s.runState = .running → t.runState = .disconnected → ∃ b, i = .inEos b ∨ i = .inErr b) ∧
    (s.runState = .disconnected → t.runState = .running →
      (∃ v, i = .wrCtrl v ∧ v.getLsbD 2 = true) ∨ i = .reset)) ∧
  (∀ (s : State) (v : Word), v.getLsbD 2 = true → ∃ t, exec (.wrCtrl v) s = .next t ∧ t.runState = .running) ∧
  State.reset.runState = .running ∧
  (∀ s : State, s.statusWord.getLsbD 0 = true ↔ s.runState = .disconnected)

/-- R27, R28: only XF_DONE writes PUB and only CTRL.SNAP writes VIEW, reset apart, each whole;
disconnect and RESTART leave both; the bin window shows VIEW and never PUB. -/
def Obligations.OnlyXfDoneWritesPubOnlySnapWritesView : Prop :=
  (∀ (i : Instr) (s t : State), exec i s = .next t → i ≠ .reset →
    (i ≠ .xfDone → t.pub = s.pub) ∧
    ((∀ v, i = .wrCtrl v → v.getLsbD 3 = false) → t.view = s.view) ∧
    (∀ v, i = .wrCtrl v → v.getLsbD 3 = true → t.view = s.pub)) ∧
  (∀ (s t : State) (payload : List Byte), s.xfBusy = true → s.xfIn = some payload → exec .xfDone s = .next t →
    t.pub = ⟨true, s.pub.seq + 1#32, payload.length / 2, spectrumBins s.params payload⟩) ∧
  State.reset.pub = ⟨false, 0#32, 0, []⟩ ∧ State.reset.view = ⟨false, 0#32, 0, []⟩ ∧
  (∀ (s : State) (r : Spectrum) (addr : BitVec 19), 0x40000 ≤ addr.toNat →
    ({ s with pub := r } : State).memRead addr = s.memRead addr)

/-- No operation changes the build's parameters, and only a host write of MAX_PAYLOAD and reset change
the ceiling (70_reset_and_hazards.md section 1, R230). -/
def Obligations.OnlyHostAndResetChangeTheCeiling : Prop :=
  ∀ (i : Instr) (s t : State), exec i s = .next t →
    t.params = s.params ∧ ((∀ v, i ≠ .wrMaxPayload v) → i ≠ .reset → t.maxPayload = s.maxPayload)

/-- With EN = 0 a quiescent framer stays quiescent, with the same decision over the same bytes, until
a MAX_PAYLOAD write, a CTRL write or reset (70_reset_and_hazards.md section 3, R236). -/
def Obligations.QuiescenceIsStableWithIngressClosed : Prop :=
  ∀ (i : Instr) (s t : State), s.quiescent = true → s.ctrl.en = false → exec i s = .next t →
    (∀ v, i ≠ .wrMaxPayload v) → (∀ v, i ≠ .wrCtrl v) → i ≠ .reset →
    t.buf = s.buf ∧ t.decision = s.decision ∧ t.ctrl = s.ctrl

/-- No operation reads an EVENTS bit to decide its result: but for EVENTS itself and the word
RD_EVENTS returns, the next state is the same whatever EVENTS holds (10_state.md section 4, R45). -/
def Obligations.EventsDecideNothing : Prop :=
  ∀ (i : Instr) (s t : State) (ev : BitVec 5), exec i s = .next t → i ≠ .rdEvents →
    ∃ ev', exec i { s with events := ev } = .next { t with events := ev' }

/-! ### Reset -/

/-- RESET puts every piece of state at its reset value in one step, from any state (10_state.md
section 6 R48, 70_reset_and_hazards.md section 1 R230), the computed STATUS, irq and cap_session
included. That the build's parameters and the ports stay is the model's choice, log 10. -/
def Obligations.ResetRestoresEveryPiece : Prop :=
  ∀ s : State, exec .reset s = .next
    { params := s.params, buf := [], headPos := 0, runState := .running, discCause := .none
      xfBusy := false, xfIn := none, pub := ⟨false, 0#32, 0, []⟩, view := ⟨false, 0#32, 0, []⟩
      ctrl := ⟨false, false⟩, events := 0#5, irqEn := 0#5, maxPayload := s.params.maxPayloadHw
      cnt := ⟨0#32, 0#32, 0#32, 0#32, 0#32, 0#32, 0#32, 0#32⟩, port := s.port } ∧
    (State.resetWith s.params s.port).statusWord = 0x00000080#32 ∧
    (State.resetWith s.params s.port).irq = false ∧ (State.resetWith s.params s.port).capSession = false

/-- The reset value of every register of the register map, as a host read returns it, for the
default build (10_state.md section 3, R30); 0 at every other aligned address. -/
def Obligations.RegistersReadTheirResetValues : Prop :=
  State.reset.memRead 0x004#19 = 0x00000080#32 ∧ State.reset.memRead 0x010#19 = 0x53505244#32 ∧
  State.reset.memRead 0x014#19 = 0x00010000#32 ∧
  ∀ addr : BitVec 19, addr.toNat % 4 = 0 → addr ≠ 0x004#19 → addr ≠ 0x010#19 → addr ≠ 0x014#19 →
    State.reset.memRead addr = 0#32

/-! ### The invariant -/

/-- The state after reset meets the invariant, the default build being legal (the number of its EPS
word is IEEE 754's, log 19, PRESUMED). -/
def Obligations.ResetMeetsTheInvariant : Prop := State.reset.Inv

/-- Every step keeps the invariant: bounds of BUF, XF_IN, the ceiling and the slots; XF_IN held exactly
while busy; DISC_CAUSE tied to RUN_STATE; finite bins (10_state.md R23 to R29, R38, R44; 20_memory.md
section 5, R68; 42_transform.md R134 P3). What makes a word finite is IEEE 754's (log 19, PRESUMED). -/
def Obligations.EveryStepKeepsTheInvariant : Prop :=
  ∀ s t : State, s.Inv → step s = .next t → t.Inv

/-! ### Endless runs -/

/-- Every endless run of the machine is weakly fair to the framer and the engine: a step of theirs
that stays enabled is eventually taken (60_exceptions.md section 7, R223), and nothing is asked of the
other agents. So a busy engine is served unless a reset comes first, and once no beat is offered and
no access is issued every run settles (41_framer.md section 3 R117, 60_exceptions.md section 7 R224),
whatever the turns and the capture pins. Holding the fairness in the free turns is the model's choice (logs 4 and 21). -/
def Obligations.EveryRunIsFairAndSettles : Prop :=
  ∀ run : Nat → State, IsRun run →
    WeaklyFair .frm run ∧ WeaklyFair .xf run ∧
    (∀ n, (run n).xfBusy = true → ∃ m, n ≤ m ∧
      ((run m).agentTakes .xf ∨ (run m).nextTurn.agent = .rst)) ∧
    (∀ n, (run n).port.inQueue = [] → (run n).port.busQueue = [] →
      ∃ m, n ≤ m ∧ (run m).settled = true)
end

