-- ==== Sys2Proof/Laws/State.lean ====
section
/-! SUPPORT. One lemma for each field and each update of the state: what the named operations set and what they leave. -/

namespace Sys2Proof.Machine

variable (s : State)

/-! `appendByte` -/

@[simp] theorem appendByte_params (b : Byte) : (s.appendByte b).params = s.params := rfl
@[simp] theorem appendByte_buf (b : Byte) : (s.appendByte b).buf = s.buf ++ [b] := rfl
@[simp] theorem appendByte_headPos (b : Byte) : (s.appendByte b).headPos = s.headPos := rfl
@[simp] theorem appendByte_runState (b : Byte) : (s.appendByte b).runState = s.runState := rfl
@[simp] theorem appendByte_discCause (b : Byte) : (s.appendByte b).discCause = s.discCause := rfl
@[simp] theorem appendByte_xfBusy (b : Byte) : (s.appendByte b).xfBusy = s.xfBusy := rfl
@[simp] theorem appendByte_xfIn (b : Byte) : (s.appendByte b).xfIn = s.xfIn := rfl
@[simp] theorem appendByte_pub (b : Byte) : (s.appendByte b).pub = s.pub := rfl
@[simp] theorem appendByte_view (b : Byte) : (s.appendByte b).view = s.view := rfl
@[simp] theorem appendByte_ctrl (b : Byte) : (s.appendByte b).ctrl = s.ctrl := rfl
@[simp] theorem appendByte_events (b : Byte) : (s.appendByte b).events = s.events := rfl
@[simp] theorem appendByte_irqEn (b : Byte) : (s.appendByte b).irqEn = s.irqEn := rfl
@[simp] theorem appendByte_maxPayload (b : Byte) : (s.appendByte b).maxPayload = s.maxPayload := rfl
@[simp] theorem appendByte_cnt (b : Byte) : (s.appendByte b).cnt = { s.cnt with bytesIn := s.cnt.bytesIn + 1#32 } := rfl
@[simp] theorem appendByte_port (b : Byte) : (s.appendByte b).port = s.port := rfl

/-! `dropHead` -/

@[simp] theorem dropHead_params (k : Nat) : (s.dropHead k).params = s.params := rfl
@[simp] theorem dropHead_buf (k : Nat) : (s.dropHead k).buf = s.buf.drop k := rfl
@[simp] theorem dropHead_headPos (k : Nat) : (s.dropHead k).headPos = s.headPos + k := rfl
@[simp] theorem dropHead_runState (k : Nat) : (s.dropHead k).runState = s.runState := rfl
@[simp] theorem dropHead_discCause (k : Nat) : (s.dropHead k).discCause = s.discCause := rfl
@[simp] theorem dropHead_xfBusy (k : Nat) : (s.dropHead k).xfBusy = s.xfBusy := rfl
@[simp] theorem dropHead_xfIn (k : Nat) : (s.dropHead k).xfIn = s.xfIn := rfl
@[simp] theorem dropHead_pub (k : Nat) : (s.dropHead k).pub = s.pub := rfl
@[simp] theorem dropHead_view (k : Nat) : (s.dropHead k).view = s.view := rfl
@[simp] theorem dropHead_ctrl (k : Nat) : (s.dropHead k).ctrl = s.ctrl := rfl
@[simp] theorem dropHead_events (k : Nat) : (s.dropHead k).events = s.events := rfl
@[simp] theorem dropHead_irqEn (k : Nat) : (s.dropHead k).irqEn = s.irqEn := rfl
@[simp] theorem dropHead_maxPayload (k : Nat) : (s.dropHead k).maxPayload = s.maxPayload := rfl
@[simp] theorem dropHead_cnt (k : Nat) : (s.dropHead k).cnt = s.cnt := rfl
@[simp] theorem dropHead_port (k : Nat) : (s.dropHead k).port = s.port := rfl

/-! `discardBuf` -/

@[simp] theorem discardBuf_params : (s.discardBuf).params = s.params := rfl
@[simp] theorem discardBuf_buf : (s.discardBuf).buf = [] := rfl
@[simp] theorem discardBuf_headPos : (s.discardBuf).headPos = s.headPos := rfl
@[simp] theorem discardBuf_runState : (s.discardBuf).runState = s.runState := rfl
@[simp] theorem discardBuf_discCause : (s.discardBuf).discCause = s.discCause := rfl
@[simp] theorem discardBuf_xfBusy : (s.discardBuf).xfBusy = s.xfBusy := rfl
@[simp] theorem discardBuf_xfIn : (s.discardBuf).xfIn = s.xfIn := rfl
@[simp] theorem discardBuf_pub : (s.discardBuf).pub = s.pub := rfl
@[simp] theorem discardBuf_view : (s.discardBuf).view = s.view := rfl
@[simp] theorem discardBuf_ctrl : (s.discardBuf).ctrl = s.ctrl := rfl
@[simp] theorem discardBuf_events : (s.discardBuf).events = s.events := rfl
@[simp] theorem discardBuf_irqEn : (s.discardBuf).irqEn = s.irqEn := rfl
@[simp] theorem discardBuf_maxPayload : (s.discardBuf).maxPayload = s.maxPayload := rfl
@[simp] theorem discardBuf_cnt : (s.discardBuf).cnt = { s.cnt with discarded := s.cnt.discarded + BitVec.ofNat 32 s.buf.length } := rfl
@[simp] theorem discardBuf_port : (s.discardBuf).port = s.port := rfl

/-! `clearEvents` -/

@[simp] theorem clearEvents_params (bits : BitVec 5) : (s.clearEvents bits).params = s.params := rfl
@[simp] theorem clearEvents_buf (bits : BitVec 5) : (s.clearEvents bits).buf = s.buf := rfl
@[simp] theorem clearEvents_headPos (bits : BitVec 5) : (s.clearEvents bits).headPos = s.headPos := rfl
@[simp] theorem clearEvents_runState (bits : BitVec 5) : (s.clearEvents bits).runState = s.runState := rfl
@[simp] theorem clearEvents_discCause (bits : BitVec 5) : (s.clearEvents bits).discCause = s.discCause := rfl
@[simp] theorem clearEvents_xfBusy (bits : BitVec 5) : (s.clearEvents bits).xfBusy = s.xfBusy := rfl
@[simp] theorem clearEvents_xfIn (bits : BitVec 5) : (s.clearEvents bits).xfIn = s.xfIn := rfl
@[simp] theorem clearEvents_pub (bits : BitVec 5) : (s.clearEvents bits).pub = s.pub := rfl
@[simp] theorem clearEvents_view (bits : BitVec 5) : (s.clearEvents bits).view = s.view := rfl
@[simp] theorem clearEvents_ctrl (bits : BitVec 5) : (s.clearEvents bits).ctrl = s.ctrl := rfl
@[simp] theorem clearEvents_events (bits : BitVec 5) : (s.clearEvents bits).events = s.events &&& ~~~bits := rfl
@[simp] theorem clearEvents_irqEn (bits : BitVec 5) : (s.clearEvents bits).irqEn = s.irqEn := rfl
@[simp] theorem clearEvents_maxPayload (bits : BitVec 5) : (s.clearEvents bits).maxPayload = s.maxPayload := rfl
@[simp] theorem clearEvents_cnt (bits : BitVec 5) : (s.clearEvents bits).cnt = s.cnt := rfl
@[simp] theorem clearEvents_port (bits : BitVec 5) : (s.clearEvents bits).port = s.port := rfl

/-! `restart` -/

@[simp] theorem restart_params : (s.restart).params = s.params := rfl
@[simp] theorem restart_buf : (s.restart).buf = [] := rfl
@[simp] theorem restart_headPos : (s.restart).headPos = 0 := rfl
@[simp] theorem restart_runState : (s.restart).runState = .running := rfl
@[simp] theorem restart_discCause : (s.restart).discCause = .none := rfl
@[simp] theorem restart_xfBusy : (s.restart).xfBusy = s.xfBusy := rfl
@[simp] theorem restart_xfIn : (s.restart).xfIn = s.xfIn := rfl
@[simp] theorem restart_pub : (s.restart).pub = s.pub := rfl
@[simp] theorem restart_view : (s.restart).view = s.view := rfl
@[simp] theorem restart_ctrl : (s.restart).ctrl = s.ctrl := rfl
@[simp] theorem restart_events : (s.restart).events = s.events := rfl
@[simp] theorem restart_irqEn : (s.restart).irqEn = s.irqEn := rfl
@[simp] theorem restart_maxPayload : (s.restart).maxPayload = s.maxPayload := rfl
@[simp] theorem restart_cnt : (s.restart).cnt = { s.cnt with discarded := s.cnt.discarded + BitVec.ofNat 32 s.buf.length } := rfl
@[simp] theorem restart_port : (s.restart).port = s.port := rfl

/-! `handPayload` -/

@[simp] theorem handPayload_params (p : List Byte) : (s.handPayload p).params = s.params := rfl
@[simp] theorem handPayload_buf (p : List Byte) : (s.handPayload p).buf = s.buf := rfl
@[simp] theorem handPayload_headPos (p : List Byte) : (s.handPayload p).headPos = s.headPos := rfl
@[simp] theorem handPayload_runState (p : List Byte) : (s.handPayload p).runState = s.runState := rfl
@[simp] theorem handPayload_discCause (p : List Byte) : (s.handPayload p).discCause = s.discCause := rfl
@[simp] theorem handPayload_xfBusy (p : List Byte) : (s.handPayload p).xfBusy = true := rfl
@[simp] theorem handPayload_xfIn (p : List Byte) : (s.handPayload p).xfIn = some p := rfl
@[simp] theorem handPayload_pub (p : List Byte) : (s.handPayload p).pub = s.pub := rfl
@[simp] theorem handPayload_view (p : List Byte) : (s.handPayload p).view = s.view := rfl
@[simp] theorem handPayload_ctrl (p : List Byte) : (s.handPayload p).ctrl = s.ctrl := rfl
@[simp] theorem handPayload_events (p : List Byte) : (s.handPayload p).events = s.events := rfl
@[simp] theorem handPayload_irqEn (p : List Byte) : (s.handPayload p).irqEn = s.irqEn := rfl
@[simp] theorem handPayload_maxPayload (p : List Byte) : (s.handPayload p).maxPayload = s.maxPayload := rfl
@[simp] theorem handPayload_cnt (p : List Byte) : (s.handPayload p).cnt = s.cnt := rfl
@[simp] theorem handPayload_port (p : List Byte) : (s.handPayload p).port = s.port := rfl

/-! `publish` -/

@[simp] theorem publish_params (r : Spectrum) : (s.publish r).params = s.params := rfl
@[simp] theorem publish_buf (r : Spectrum) : (s.publish r).buf = s.buf := rfl
@[simp] theorem publish_headPos (r : Spectrum) : (s.publish r).headPos = s.headPos := rfl
@[simp] theorem publish_runState (r : Spectrum) : (s.publish r).runState = s.runState := rfl
@[simp] theorem publish_discCause (r : Spectrum) : (s.publish r).discCause = s.discCause := rfl
@[simp] theorem publish_xfBusy (r : Spectrum) : (s.publish r).xfBusy = s.xfBusy := rfl
@[simp] theorem publish_xfIn (r : Spectrum) : (s.publish r).xfIn = s.xfIn := rfl
@[simp] theorem publish_pub (r : Spectrum) : (s.publish r).pub = r := rfl
@[simp] theorem publish_view (r : Spectrum) : (s.publish r).view = s.view := rfl
@[simp] theorem publish_ctrl (r : Spectrum) : (s.publish r).ctrl = s.ctrl := rfl
@[simp] theorem publish_events (r : Spectrum) : (s.publish r).events = s.events := rfl
@[simp] theorem publish_irqEn (r : Spectrum) : (s.publish r).irqEn = s.irqEn := rfl
@[simp] theorem publish_maxPayload (r : Spectrum) : (s.publish r).maxPayload = s.maxPayload := rfl
@[simp] theorem publish_cnt (r : Spectrum) : (s.publish r).cnt = s.cnt := rfl
@[simp] theorem publish_port (r : Spectrum) : (s.publish r).port = s.port := rfl

/-! `engineIdle` -/

@[simp] theorem engineIdle_params : (s.engineIdle).params = s.params := rfl
@[simp] theorem engineIdle_buf : (s.engineIdle).buf = s.buf := rfl
@[simp] theorem engineIdle_headPos : (s.engineIdle).headPos = s.headPos := rfl
@[simp] theorem engineIdle_runState : (s.engineIdle).runState = s.runState := rfl
@[simp] theorem engineIdle_discCause : (s.engineIdle).discCause = s.discCause := rfl
@[simp] theorem engineIdle_xfBusy : (s.engineIdle).xfBusy = false := rfl
@[simp] theorem engineIdle_xfIn : (s.engineIdle).xfIn = none := rfl
@[simp] theorem engineIdle_pub : (s.engineIdle).pub = s.pub := rfl
@[simp] theorem engineIdle_view : (s.engineIdle).view = s.view := rfl
@[simp] theorem engineIdle_ctrl : (s.engineIdle).ctrl = s.ctrl := rfl
@[simp] theorem engineIdle_events : (s.engineIdle).events = s.events := rfl
@[simp] theorem engineIdle_irqEn : (s.engineIdle).irqEn = s.irqEn := rfl
@[simp] theorem engineIdle_maxPayload : (s.engineIdle).maxPayload = s.maxPayload := rfl
@[simp] theorem engineIdle_cnt : (s.engineIdle).cnt = s.cnt := rfl
@[simp] theorem engineIdle_port : (s.engineIdle).port = s.port := rfl

/-! `snap` -/

@[simp] theorem snap_params : (s.snap).params = s.params := rfl
@[simp] theorem snap_buf : (s.snap).buf = s.buf := rfl
@[simp] theorem snap_headPos : (s.snap).headPos = s.headPos := rfl
@[simp] theorem snap_runState : (s.snap).runState = s.runState := rfl
@[simp] theorem snap_discCause : (s.snap).discCause = s.discCause := rfl
@[simp] theorem snap_xfBusy : (s.snap).xfBusy = s.xfBusy := rfl
@[simp] theorem snap_xfIn : (s.snap).xfIn = s.xfIn := rfl
@[simp] theorem snap_pub : (s.snap).pub = s.pub := rfl
@[simp] theorem snap_view : (s.snap).view = s.pub := rfl
@[simp] theorem snap_ctrl : (s.snap).ctrl = s.ctrl := rfl
@[simp] theorem snap_events : (s.snap).events = s.events := rfl
@[simp] theorem snap_irqEn : (s.snap).irqEn = s.irqEn := rfl
@[simp] theorem snap_maxPayload : (s.snap).maxPayload = s.maxPayload := rfl
@[simp] theorem snap_cnt : (s.snap).cnt = s.cnt := rfl
@[simp] theorem snap_port : (s.snap).port = s.port := rfl

/-! `countFrame` -/

@[simp] theorem countFrame_params : (s.countFrame).params = s.params := rfl
@[simp] theorem countFrame_buf : (s.countFrame).buf = s.buf := rfl
@[simp] theorem countFrame_headPos : (s.countFrame).headPos = s.headPos := rfl
@[simp] theorem countFrame_runState : (s.countFrame).runState = s.runState := rfl
@[simp] theorem countFrame_discCause : (s.countFrame).discCause = s.discCause := rfl
@[simp] theorem countFrame_xfBusy : (s.countFrame).xfBusy = s.xfBusy := rfl
@[simp] theorem countFrame_xfIn : (s.countFrame).xfIn = s.xfIn := rfl
@[simp] theorem countFrame_pub : (s.countFrame).pub = s.pub := rfl
@[simp] theorem countFrame_view : (s.countFrame).view = s.view := rfl
@[simp] theorem countFrame_ctrl : (s.countFrame).ctrl = s.ctrl := rfl
@[simp] theorem countFrame_events : (s.countFrame).events = s.events := rfl
@[simp] theorem countFrame_irqEn : (s.countFrame).irqEn = s.irqEn := rfl
@[simp] theorem countFrame_maxPayload : (s.countFrame).maxPayload = s.maxPayload := rfl
@[simp] theorem countFrame_cnt : (s.countFrame).cnt = { s.cnt with framesOk := s.cnt.framesOk + 1#32 } := rfl
@[simp] theorem countFrame_port : (s.countFrame).port = s.port := rfl

/-! `sendCapture` -/

@[simp] theorem sendCapture_params (p : List Byte) : (s.sendCapture p).params = s.params := rfl
@[simp] theorem sendCapture_buf (p : List Byte) : (s.sendCapture p).buf = s.buf := rfl
@[simp] theorem sendCapture_headPos (p : List Byte) : (s.sendCapture p).headPos = s.headPos := rfl
@[simp] theorem sendCapture_runState (p : List Byte) : (s.sendCapture p).runState = s.runState := rfl
@[simp] theorem sendCapture_discCause (p : List Byte) : (s.sendCapture p).discCause = s.discCause := rfl
@[simp] theorem sendCapture_xfBusy (p : List Byte) : (s.sendCapture p).xfBusy = s.xfBusy := rfl
@[simp] theorem sendCapture_xfIn (p : List Byte) : (s.sendCapture p).xfIn = s.xfIn := rfl
@[simp] theorem sendCapture_pub (p : List Byte) : (s.sendCapture p).pub = s.pub := rfl
@[simp] theorem sendCapture_view (p : List Byte) : (s.sendCapture p).view = s.view := rfl
@[simp] theorem sendCapture_ctrl (p : List Byte) : (s.sendCapture p).ctrl = s.ctrl := rfl
@[simp] theorem sendCapture_events (p : List Byte) : (s.sendCapture p).events = s.events := rfl
@[simp] theorem sendCapture_irqEn (p : List Byte) : (s.sendCapture p).irqEn = s.irqEn := rfl
@[simp] theorem sendCapture_maxPayload (p : List Byte) : (s.sendCapture p).maxPayload = s.maxPayload := rfl
@[simp] theorem sendCapture_cnt (p : List Byte) : (s.sendCapture p).cnt = s.cnt := rfl
@[simp] theorem sendCapture_port (p : List Byte) : (s.sendCapture p).port = { s.port with capLog := s.port.capLog ++ [⟨p.length, p⟩] } := rfl

/-! `busReturn` -/

@[simp] theorem busReturn_params (v : Word) : (s.busReturn v).params = s.params := rfl
@[simp] theorem busReturn_buf (v : Word) : (s.busReturn v).buf = s.buf := rfl
@[simp] theorem busReturn_headPos (v : Word) : (s.busReturn v).headPos = s.headPos := rfl
@[simp] theorem busReturn_runState (v : Word) : (s.busReturn v).runState = s.runState := rfl
@[simp] theorem busReturn_discCause (v : Word) : (s.busReturn v).discCause = s.discCause := rfl
@[simp] theorem busReturn_xfBusy (v : Word) : (s.busReturn v).xfBusy = s.xfBusy := rfl
@[simp] theorem busReturn_xfIn (v : Word) : (s.busReturn v).xfIn = s.xfIn := rfl
@[simp] theorem busReturn_pub (v : Word) : (s.busReturn v).pub = s.pub := rfl
@[simp] theorem busReturn_view (v : Word) : (s.busReturn v).view = s.view := rfl
@[simp] theorem busReturn_ctrl (v : Word) : (s.busReturn v).ctrl = s.ctrl := rfl
@[simp] theorem busReturn_events (v : Word) : (s.busReturn v).events = s.events := rfl
@[simp] theorem busReturn_irqEn (v : Word) : (s.busReturn v).irqEn = s.irqEn := rfl
@[simp] theorem busReturn_maxPayload (v : Word) : (s.busReturn v).maxPayload = s.maxPayload := rfl
@[simp] theorem busReturn_cnt (v : Word) : (s.busReturn v).cnt = s.cnt := rfl
@[simp] theorem busReturn_port (v : Word) : (s.busReturn v).port = { s.port with busRdata := v } := rfl

/-! `setCtrl` -/

@[simp] theorem setCtrl_params (en capEn : Bool) : (s.setCtrl en capEn).params = s.params := rfl
@[simp] theorem setCtrl_buf (en capEn : Bool) : (s.setCtrl en capEn).buf = s.buf := rfl
@[simp] theorem setCtrl_headPos (en capEn : Bool) : (s.setCtrl en capEn).headPos = s.headPos := rfl
@[simp] theorem setCtrl_runState (en capEn : Bool) : (s.setCtrl en capEn).runState = s.runState := rfl
@[simp] theorem setCtrl_discCause (en capEn : Bool) : (s.setCtrl en capEn).discCause = s.discCause := rfl
@[simp] theorem setCtrl_xfBusy (en capEn : Bool) : (s.setCtrl en capEn).xfBusy = s.xfBusy := rfl
@[simp] theorem setCtrl_xfIn (en capEn : Bool) : (s.setCtrl en capEn).xfIn = s.xfIn := rfl
@[simp] theorem setCtrl_pub (en capEn : Bool) : (s.setCtrl en capEn).pub = s.pub := rfl
@[simp] theorem setCtrl_view (en capEn : Bool) : (s.setCtrl en capEn).view = s.view := rfl
@[simp] theorem setCtrl_ctrl (en capEn : Bool) : (s.setCtrl en capEn).ctrl = ⟨en, capEn⟩ := rfl
@[simp] theorem setCtrl_events (en capEn : Bool) : (s.setCtrl en capEn).events = s.events := rfl
@[simp] theorem setCtrl_irqEn (en capEn : Bool) : (s.setCtrl en capEn).irqEn = s.irqEn := rfl
@[simp] theorem setCtrl_maxPayload (en capEn : Bool) : (s.setCtrl en capEn).maxPayload = s.maxPayload := rfl
@[simp] theorem setCtrl_cnt (en capEn : Bool) : (s.setCtrl en capEn).cnt = s.cnt := rfl
@[simp] theorem setCtrl_port (en capEn : Bool) : (s.setCtrl en capEn).port = s.port := rfl

/-! `clrCnt` -/

@[simp] theorem clrCnt_params : (s.clrCnt).params = s.params := rfl
@[simp] theorem clrCnt_buf : (s.clrCnt).buf = s.buf := rfl
@[simp] theorem clrCnt_headPos : (s.clrCnt).headPos = s.headPos := rfl
@[simp] theorem clrCnt_runState : (s.clrCnt).runState = s.runState := rfl
@[simp] theorem clrCnt_discCause : (s.clrCnt).discCause = s.discCause := rfl
@[simp] theorem clrCnt_xfBusy : (s.clrCnt).xfBusy = s.xfBusy := rfl
@[simp] theorem clrCnt_xfIn : (s.clrCnt).xfIn = s.xfIn := rfl
@[simp] theorem clrCnt_pub : (s.clrCnt).pub = s.pub := rfl
@[simp] theorem clrCnt_view : (s.clrCnt).view = s.view := rfl
@[simp] theorem clrCnt_ctrl : (s.clrCnt).ctrl = s.ctrl := rfl
@[simp] theorem clrCnt_events : (s.clrCnt).events = s.events := rfl
@[simp] theorem clrCnt_irqEn : (s.clrCnt).irqEn = s.irqEn := rfl
@[simp] theorem clrCnt_maxPayload : (s.clrCnt).maxPayload = s.maxPayload := rfl
@[simp] theorem clrCnt_cnt : (s.clrCnt).cnt = Counters.zero := rfl
@[simp] theorem clrCnt_port : (s.clrCnt).port = s.port := rfl

/-! `setIrqEn` -/

@[simp] theorem setIrqEn_params (bits : BitVec 5) : (s.setIrqEn bits).params = s.params := rfl
@[simp] theorem setIrqEn_buf (bits : BitVec 5) : (s.setIrqEn bits).buf = s.buf := rfl
@[simp] theorem setIrqEn_headPos (bits : BitVec 5) : (s.setIrqEn bits).headPos = s.headPos := rfl
@[simp] theorem setIrqEn_runState (bits : BitVec 5) : (s.setIrqEn bits).runState = s.runState := rfl
@[simp] theorem setIrqEn_discCause (bits : BitVec 5) : (s.setIrqEn bits).discCause = s.discCause := rfl
@[simp] theorem setIrqEn_xfBusy (bits : BitVec 5) : (s.setIrqEn bits).xfBusy = s.xfBusy := rfl
@[simp] theorem setIrqEn_xfIn (bits : BitVec 5) : (s.setIrqEn bits).xfIn = s.xfIn := rfl
@[simp] theorem setIrqEn_pub (bits : BitVec 5) : (s.setIrqEn bits).pub = s.pub := rfl
@[simp] theorem setIrqEn_view (bits : BitVec 5) : (s.setIrqEn bits).view = s.view := rfl
@[simp] theorem setIrqEn_ctrl (bits : BitVec 5) : (s.setIrqEn bits).ctrl = s.ctrl := rfl
@[simp] theorem setIrqEn_events (bits : BitVec 5) : (s.setIrqEn bits).events = s.events := rfl
@[simp] theorem setIrqEn_irqEn (bits : BitVec 5) : (s.setIrqEn bits).irqEn = bits := rfl
@[simp] theorem setIrqEn_maxPayload (bits : BitVec 5) : (s.setIrqEn bits).maxPayload = s.maxPayload := rfl
@[simp] theorem setIrqEn_cnt (bits : BitVec 5) : (s.setIrqEn bits).cnt = s.cnt := rfl
@[simp] theorem setIrqEn_port (bits : BitVec 5) : (s.setIrqEn bits).port = s.port := rfl

/-! `setCeiling` -/

@[simp] theorem setCeiling_params (v : Word) : (s.setCeiling v).params = s.params := rfl
@[simp] theorem setCeiling_buf (v : Word) : (s.setCeiling v).buf = s.buf := rfl
@[simp] theorem setCeiling_headPos (v : Word) : (s.setCeiling v).headPos = s.headPos := rfl
@[simp] theorem setCeiling_runState (v : Word) : (s.setCeiling v).runState = s.runState := rfl
@[simp] theorem setCeiling_discCause (v : Word) : (s.setCeiling v).discCause = s.discCause := rfl
@[simp] theorem setCeiling_xfBusy (v : Word) : (s.setCeiling v).xfBusy = s.xfBusy := rfl
@[simp] theorem setCeiling_xfIn (v : Word) : (s.setCeiling v).xfIn = s.xfIn := rfl
@[simp] theorem setCeiling_pub (v : Word) : (s.setCeiling v).pub = s.pub := rfl
@[simp] theorem setCeiling_view (v : Word) : (s.setCeiling v).view = s.view := rfl
@[simp] theorem setCeiling_ctrl (v : Word) : (s.setCeiling v).ctrl = s.ctrl := rfl
@[simp] theorem setCeiling_events (v : Word) : (s.setCeiling v).events = s.events := rfl
@[simp] theorem setCeiling_irqEn (v : Word) : (s.setCeiling v).irqEn = s.irqEn := rfl
@[simp] theorem setCeiling_maxPayload (v : Word) : (s.setCeiling v).maxPayload = legalCeiling s.params v := rfl
@[simp] theorem setCeiling_cnt (v : Word) : (s.setCeiling v).cnt = s.cnt := rfl
@[simp] theorem setCeiling_port (v : Word) : (s.setCeiling v).port = s.port := rfl

/-! `takeBeat` -/

@[simp] theorem takeBeat_params : (s.takeBeat).params = s.params := rfl
@[simp] theorem takeBeat_buf : (s.takeBeat).buf = s.buf := rfl
@[simp] theorem takeBeat_headPos : (s.takeBeat).headPos = s.headPos := rfl
@[simp] theorem takeBeat_runState : (s.takeBeat).runState = s.runState := rfl
@[simp] theorem takeBeat_discCause : (s.takeBeat).discCause = s.discCause := rfl
@[simp] theorem takeBeat_xfBusy : (s.takeBeat).xfBusy = s.xfBusy := rfl
@[simp] theorem takeBeat_xfIn : (s.takeBeat).xfIn = s.xfIn := rfl
@[simp] theorem takeBeat_pub : (s.takeBeat).pub = s.pub := rfl
@[simp] theorem takeBeat_view : (s.takeBeat).view = s.view := rfl
@[simp] theorem takeBeat_ctrl : (s.takeBeat).ctrl = s.ctrl := rfl
@[simp] theorem takeBeat_events : (s.takeBeat).events = s.events := rfl
@[simp] theorem takeBeat_irqEn : (s.takeBeat).irqEn = s.irqEn := rfl
@[simp] theorem takeBeat_maxPayload : (s.takeBeat).maxPayload = s.maxPayload := rfl
@[simp] theorem takeBeat_cnt : (s.takeBeat).cnt = s.cnt := rfl
@[simp] theorem takeBeat_port : (s.takeBeat).port = { s.port with inQueue := s.port.inQueue.tail } := rfl

/-! `takeAccess` -/

@[simp] theorem takeAccess_params : (s.takeAccess).params = s.params := rfl
@[simp] theorem takeAccess_buf : (s.takeAccess).buf = s.buf := rfl
@[simp] theorem takeAccess_headPos : (s.takeAccess).headPos = s.headPos := rfl
@[simp] theorem takeAccess_runState : (s.takeAccess).runState = s.runState := rfl
@[simp] theorem takeAccess_discCause : (s.takeAccess).discCause = s.discCause := rfl
@[simp] theorem takeAccess_xfBusy : (s.takeAccess).xfBusy = s.xfBusy := rfl
@[simp] theorem takeAccess_xfIn : (s.takeAccess).xfIn = s.xfIn := rfl
@[simp] theorem takeAccess_pub : (s.takeAccess).pub = s.pub := rfl
@[simp] theorem takeAccess_view : (s.takeAccess).view = s.view := rfl
@[simp] theorem takeAccess_ctrl : (s.takeAccess).ctrl = s.ctrl := rfl
@[simp] theorem takeAccess_events : (s.takeAccess).events = s.events := rfl
@[simp] theorem takeAccess_irqEn : (s.takeAccess).irqEn = s.irqEn := rfl
@[simp] theorem takeAccess_maxPayload : (s.takeAccess).maxPayload = s.maxPayload := rfl
@[simp] theorem takeAccess_cnt : (s.takeAccess).cnt = s.cnt := rfl
@[simp] theorem takeAccess_port : (s.takeAccess).port = { s.port with busQueue := s.port.busQueue.tail } := rfl

/-! `beginTurn` -/

@[simp] theorem beginTurn_params : (s.beginTurn).params = s.params := rfl
@[simp] theorem beginTurn_buf : (s.beginTurn).buf = s.buf := rfl
@[simp] theorem beginTurn_headPos : (s.beginTurn).headPos = s.headPos := rfl
@[simp] theorem beginTurn_runState : (s.beginTurn).runState = s.runState := rfl
@[simp] theorem beginTurn_discCause : (s.beginTurn).discCause = s.discCause := rfl
@[simp] theorem beginTurn_xfBusy : (s.beginTurn).xfBusy = s.xfBusy := rfl
@[simp] theorem beginTurn_xfIn : (s.beginTurn).xfIn = s.xfIn := rfl
@[simp] theorem beginTurn_pub : (s.beginTurn).pub = s.pub := rfl
@[simp] theorem beginTurn_view : (s.beginTurn).view = s.view := rfl
@[simp] theorem beginTurn_ctrl : (s.beginTurn).ctrl = s.ctrl := rfl
@[simp] theorem beginTurn_events : (s.beginTurn).events = s.events := rfl
@[simp] theorem beginTurn_irqEn : (s.beginTurn).irqEn = s.irqEn := rfl
@[simp] theorem beginTurn_maxPayload : (s.beginTurn).maxPayload = s.maxPayload := rfl
@[simp] theorem beginTurn_cnt : (s.beginTurn).cnt = s.cnt := rfl

/-! `raise`: the clauses of R213 -/

@[simp] theorem raise_params (e : Event) : (s.raise e).params = s.params := by cases e <;> rfl
@[simp] theorem raise_headPos (e : Event) : (s.raise e).headPos = s.headPos := by cases e <;> rfl
@[simp] theorem raise_xfBusy (e : Event) : (s.raise e).xfBusy = s.xfBusy := by cases e <;> rfl
@[simp] theorem raise_xfIn (e : Event) : (s.raise e).xfIn = s.xfIn := by cases e <;> rfl
@[simp] theorem raise_pub (e : Event) : (s.raise e).pub = s.pub := by cases e <;> rfl
@[simp] theorem raise_view (e : Event) : (s.raise e).view = s.view := by cases e <;> rfl
@[simp] theorem raise_ctrl (e : Event) : (s.raise e).ctrl = s.ctrl := by cases e <;> rfl
@[simp] theorem raise_irqEn (e : Event) : (s.raise e).irqEn = s.irqEn := by cases e <;> rfl
@[simp] theorem raise_maxPayload (e : Event) : (s.raise e).maxPayload = s.maxPayload := by cases e <;> rfl
@[simp] theorem raise_port (e : Event) : (s.raise e).port = s.port := by cases e <;> rfl
@[simp] theorem raise_events (e : Event) : (s.raise e).events = s.events ||| e.bit := rfl
@[simp] theorem raise_disc_buf (c : DiscCause) : (s.raise (.disc c)).buf = [] := rfl
@[simp] theorem raise_disc_runState (c : DiscCause) : (s.raise (.disc c)).runState = .disconnected := rfl
@[simp] theorem raise_disc_discCause (c : DiscCause) : (s.raise (.disc c)).discCause = c := rfl
@[simp] theorem raise_disc_cnt (c : DiscCause) : (s.raise (.disc c)).cnt = { s.cnt with discarded := s.cnt.discarded + BitVec.ofNat 32 s.buf.length } := rfl
@[simp] theorem raise_newSpec_buf : (s.raise .newSpec).buf = s.buf := rfl
@[simp] theorem raise_newSpec_runState : (s.raise .newSpec).runState = s.runState := rfl
@[simp] theorem raise_newSpec_discCause : (s.raise .newSpec).discCause = s.discCause := rfl
@[simp] theorem raise_newSpec_cnt : (s.raise .newSpec).cnt = { s.cnt with spectra := s.cnt.spectra + 1#32 } := rfl
@[simp] theorem raise_capErr_buf : (s.raise .capErr).buf = s.buf := rfl
@[simp] theorem raise_capErr_runState : (s.raise .capErr).runState = s.runState := rfl
@[simp] theorem raise_capErr_discCause : (s.raise .capErr).discCause = s.discCause := rfl
@[simp] theorem raise_capErr_cnt : (s.raise .capErr).cnt = { s.cnt with capErrs := s.cnt.capErrs + 1#32 } := rfl
@[simp] theorem raise_lenRej_buf : (s.raise .lenRej).buf = s.buf := rfl
@[simp] theorem raise_lenRej_runState : (s.raise .lenRej).runState = s.runState := rfl
@[simp] theorem raise_lenRej_discCause : (s.raise .lenRej).discCause = s.discCause := rfl
@[simp] theorem raise_lenRej_cnt : (s.raise .lenRej).cnt = { s.cnt with lenRejects := s.cnt.lenRejects + 1#32 } := rfl
@[simp] theorem raise_resync_buf : (s.raise .resync).buf = s.buf := rfl
@[simp] theorem raise_resync_runState : (s.raise .resync).runState = s.runState := rfl
@[simp] theorem raise_resync_discCause : (s.raise .resync).discCause = s.discCause := rfl
@[simp] theorem raise_resync_cnt : (s.raise .resync).cnt = { s.cnt with resyncDrops := s.cnt.resyncDrops + 1#32 } := rfl

/-! `countOdd` -/

@[simp] theorem countOdd_params (n : Nat) : (s.countOdd n).params = s.params := by unfold State.countOdd; split <;> rfl
@[simp] theorem countOdd_buf (n : Nat) : (s.countOdd n).buf = s.buf := by unfold State.countOdd; split <;> rfl
@[simp] theorem countOdd_headPos (n : Nat) : (s.countOdd n).headPos = s.headPos := by unfold State.countOdd; split <;> rfl
@[simp] theorem countOdd_runState (n : Nat) : (s.countOdd n).runState = s.runState := by unfold State.countOdd; split <;> rfl
@[simp] theorem countOdd_discCause (n : Nat) : (s.countOdd n).discCause = s.discCause := by unfold State.countOdd; split <;> rfl
@[simp] theorem countOdd_xfBusy (n : Nat) : (s.countOdd n).xfBusy = s.xfBusy := by unfold State.countOdd; split <;> rfl
@[simp] theorem countOdd_xfIn (n : Nat) : (s.countOdd n).xfIn = s.xfIn := by unfold State.countOdd; split <;> rfl
@[simp] theorem countOdd_pub (n : Nat) : (s.countOdd n).pub = s.pub := by unfold State.countOdd; split <;> rfl
@[simp] theorem countOdd_view (n : Nat) : (s.countOdd n).view = s.view := by unfold State.countOdd; split <;> rfl
@[simp] theorem countOdd_ctrl (n : Nat) : (s.countOdd n).ctrl = s.ctrl := by unfold State.countOdd; split <;> rfl
@[simp] theorem countOdd_events (n : Nat) : (s.countOdd n).events = s.events := by unfold State.countOdd; split <;> rfl
@[simp] theorem countOdd_irqEn (n : Nat) : (s.countOdd n).irqEn = s.irqEn := by unfold State.countOdd; split <;> rfl
@[simp] theorem countOdd_maxPayload (n : Nat) : (s.countOdd n).maxPayload = s.maxPayload := by unfold State.countOdd; split <;> rfl
@[simp] theorem countOdd_port (n : Nat) : (s.countOdd n).port = s.port := by unfold State.countOdd; split <;> rfl
theorem countOdd_cnt (n : Nat) : (s.countOdd n).cnt = if n % 2 = 1 then { s.cnt with oddTrunc := s.cnt.oddTrunc + 1#32 } else s.cnt := by
  unfold State.countOdd; split <;> rfl

/-! `tee` -/

@[simp] theorem tee_params (p : List Byte) : (s.tee p).params = s.params := by
  unfold State.tee; split <;> [split; skip] <;> rfl
@[simp] theorem tee_buf (p : List Byte) : (s.tee p).buf = s.buf := by
  unfold State.tee; split <;> [split; skip] <;> rfl
@[simp] theorem tee_headPos (p : List Byte) : (s.tee p).headPos = s.headPos := by
  unfold State.tee; split <;> [split; skip] <;> rfl
@[simp] theorem tee_runState (p : List Byte) : (s.tee p).runState = s.runState := by
  unfold State.tee; split <;> [split; skip] <;> rfl
@[simp] theorem tee_discCause (p : List Byte) : (s.tee p).discCause = s.discCause := by
  unfold State.tee; split <;> [split; skip] <;> rfl
@[simp] theorem tee_xfBusy (p : List Byte) : (s.tee p).xfBusy = s.xfBusy := by
  unfold State.tee; split <;> [split; skip] <;> rfl
@[simp] theorem tee_xfIn (p : List Byte) : (s.tee p).xfIn = s.xfIn := by
  unfold State.tee; split <;> [split; skip] <;> rfl
@[simp] theorem tee_pub (p : List Byte) : (s.tee p).pub = s.pub := by
  unfold State.tee; split <;> [split; skip] <;> rfl
@[simp] theorem tee_view (p : List Byte) : (s.tee p).view = s.view := by
  unfold State.tee; split <;> [split; skip] <;> rfl
@[simp] theorem tee_ctrl (p : List Byte) : (s.tee p).ctrl = s.ctrl := by
  unfold State.tee; split <;> [split; skip] <;> rfl
@[simp] theorem tee_irqEn (p : List Byte) : (s.tee p).irqEn = s.irqEn := by
  unfold State.tee; split <;> [split; skip] <;> rfl
@[simp] theorem tee_maxPayload (p : List Byte) : (s.tee p).maxPayload = s.maxPayload := by
  unfold State.tee; split <;> [split; skip] <;> rfl

/-- With CAP_EN = 0 the tee changes nothing. -/
theorem tee_off (p : List Byte) (h : s.ctrl.capEn = false) : s.tee p = s := by simp [State.tee, h]

/-- With CAP_EN = 1 and an OK answer the tee sends the message and changes nothing else. -/
theorem tee_ok (p : List Byte) (h : s.ctrl.capEn = true) (hr : s.port.capResp = .ok) :
    s.tee p = s.sendCapture p := by simp [State.tee, h, hr]

/-- With CAP_EN = 1 and a FAIL answer the tee sends the message and raises CAPERR. -/
theorem tee_fail (p : List Byte) (h : s.ctrl.capEn = true) (hr : s.port.capResp = .fail) :
    s.tee p = (s.sendCapture p).raise .capErr := by simp [State.tee, h, hr]

/-! `resetWith` -/

@[simp] theorem resetWith_params (p : Params) (q : Ports) : (State.resetWith p q).params = p := rfl
@[simp] theorem resetWith_buf (p : Params) (q : Ports) : (State.resetWith p q).buf = [] := rfl
@[simp] theorem resetWith_headPos (p : Params) (q : Ports) : (State.resetWith p q).headPos = 0 := rfl
@[simp] theorem resetWith_runState (p : Params) (q : Ports) : (State.resetWith p q).runState = .running := rfl
@[simp] theorem resetWith_discCause (p : Params) (q : Ports) : (State.resetWith p q).discCause = .none := rfl
@[simp] theorem resetWith_xfBusy (p : Params) (q : Ports) : (State.resetWith p q).xfBusy = false := rfl
@[simp] theorem resetWith_xfIn (p : Params) (q : Ports) : (State.resetWith p q).xfIn = none := rfl
@[simp] theorem resetWith_pub (p : Params) (q : Ports) : (State.resetWith p q).pub = Spectrum.empty := rfl
@[simp] theorem resetWith_view (p : Params) (q : Ports) : (State.resetWith p q).view = Spectrum.empty := rfl
@[simp] theorem resetWith_ctrl (p : Params) (q : Ports) : (State.resetWith p q).ctrl = ⟨false, false⟩ := rfl
@[simp] theorem resetWith_events (p : Params) (q : Ports) : (State.resetWith p q).events = 0#5 := rfl
@[simp] theorem resetWith_irqEn (p : Params) (q : Ports) : (State.resetWith p q).irqEn = 0#5 := rfl
@[simp] theorem resetWith_maxPayload (p : Params) (q : Ports) : (State.resetWith p q).maxPayload = p.maxPayloadHw := rfl
@[simp] theorem resetWith_cnt (p : Params) (q : Ports) : (State.resetWith p q).cnt = Counters.zero := rfl
@[simp] theorem resetWith_port (p : Params) (q : Ports) : (State.resetWith p q).port = q := rfl

/-! `emitFrame` -/

@[simp] theorem emitFrame_params (n : Nat) : (s.emitFrame n).params = s.params := by simp [State.emitFrame]
@[simp] theorem emitFrame_buf (n : Nat) : (s.emitFrame n).buf = s.buf.drop (8 + n) := by simp [State.emitFrame]
@[simp] theorem emitFrame_headPos (n : Nat) : (s.emitFrame n).headPos = s.headPos + (8 + n) := by simp [State.emitFrame]
@[simp] theorem emitFrame_runState (n : Nat) : (s.emitFrame n).runState = s.runState := by simp [State.emitFrame]
@[simp] theorem emitFrame_discCause (n : Nat) : (s.emitFrame n).discCause = s.discCause := by simp [State.emitFrame]
@[simp] theorem emitFrame_xfBusy (n : Nat) : (s.emitFrame n).xfBusy = true := by simp [State.emitFrame]
@[simp] theorem emitFrame_xfIn (n : Nat) : (s.emitFrame n).xfIn = some (payloadOf s.buf n) := by simp [State.emitFrame]
@[simp] theorem emitFrame_pub (n : Nat) : (s.emitFrame n).pub = s.pub := by simp [State.emitFrame]
@[simp] theorem emitFrame_view (n : Nat) : (s.emitFrame n).view = s.view := by simp [State.emitFrame]
@[simp] theorem emitFrame_ctrl (n : Nat) : (s.emitFrame n).ctrl = s.ctrl := by simp [State.emitFrame]
@[simp] theorem emitFrame_irqEn (n : Nat) : (s.emitFrame n).irqEn = s.irqEn := by simp [State.emitFrame]
@[simp] theorem emitFrame_maxPayload (n : Nat) : (s.emitFrame n).maxPayload = s.maxPayload := by simp [State.emitFrame]

end Sys2Proof.Machine
end

