-- ==== Sys2Proof/Laws/Engine.lean ====
section
/-! SUPPORT. The engine's operand and result: samples of a payload, bins of a spectrum, and what R134 promises of them. -/

namespace Sys2Proof.Machine

/-! ### Samples -/

theorem samples_length (p : List Byte) : (samples p).length = p.length / 2 := by
  fun_induction samples p with
  | case1 b0 b1 rest ih => simp [ih]; omega
  | case2 => simp
  | case3 => rfl

theorem sext8_eq_toInt (b : Byte) : sext8 b = b.toInt := by
  unfold sext8 BitVec.toInt; split <;> split <;> omega

theorem samples_inRange (p : List Byte) : ∀ x ∈ samples p, x.InRange := by
  fun_induction samples p with
  | case1 b0 b1 rest ih =>
    intro x hx
    rcases List.mem_cons.1 hx with rfl | hx
    · have h0 := b0.isLt
      have h1 := b1.isLt
      refine ⟨?_, ?_, ?_, ?_⟩ <;> simp only [sext8] <;> split <;> omega
    · exact ih x hx
  | case2 => simp
  | case3 => simp

/-- A last odd byte forms no sample (R131). -/
theorem samples_append_odd (p : List Byte) (b : Byte) (h : p.length % 2 = 0) :
    samples (p ++ [b]) = samples p := by
  fun_induction samples p with
  | case1 b0 b1 rest ih =>
    have : rest.length % 2 = 0 := by simp at h; omega
    simp [samples, ih this]
  | case2 => simp at h
  | case3 => rfl

theorem samples_getElem? (p : List Byte) (n : Nat) (h : n < p.length / 2) :
    (samples p)[n]? = some ⟨(p.getD (2 * n) 0#8).toInt, (p.getD (2 * n + 1) 0#8).toInt⟩ := by
  fun_induction samples p generalizing n with
  | case1 b0 b1 rest ih =>
    cases n with
    | zero => simp [sext8_eq_toInt]
    | succ n =>
      have : n < rest.length / 2 := by simp at h; omega
      simpa [Nat.mul_add] using ih n this
  | case2 b => simp at h
  | case3 => simp at h

theorem allZero_iff (x : List Sample) : allZero x = true ↔ ∀ s ∈ x, s = ⟨0, 0⟩ := by
  simp [allZero]

/-! ### Bins -/

theorem spectrumBins_length (p : Params) (payload : List Byte) :
    (spectrumBins p payload).length = payload.length / 2 := by
  simp [spectrumBins, samples_length]

theorem spectrumBins_getElem? (p : Params) (payload : List Byte) (k : Nat) (h : k < payload.length / 2) :
    (spectrumBins p payload)[k]? = some (dbNum p (samples payload) k) := by
  simp [spectrumBins, samples_length, h]

theorem dbNum_of_allZero {p : Params} {x : List Sample} {k : Nat} (h : ∀ s ∈ x, s = ⟨0, 0⟩) :
    dbNum p x k = p.epsWord := by
  simp [dbNum, (allZero_iff x).2 h]

/-- P3's first half for every bin: the word is finite. -/
theorem dbNum_finite {p : Params} (hp : p.Legal) (x : List Sample) (k : Nat) :
    finite64 (dbNum p x k) = true := by
  unfold dbNum; split
  · exact hp.epsWord_nearest.1
  · exact Config.engine.finite _ _ _

theorem spectrumBins_finite {p : Params} (hp : p.Legal) (payload : List Byte) :
    ∀ w ∈ spectrumBins p payload, finite64 w = true := by
  intro w hw
  obtain ⟨k, -, rfl⟩ := List.mem_map.1 hw
  exact dbNum_finite hp _ _

/-- The exact bin value of an all-zero vector is 20·log10(EPS) (R133). -/
theorem isExactDb_of_allZero {eps : ℝ} {x : List Sample} {k : Nat} {d : ℝ}
    (h : ∀ s ∈ x, s = ⟨0, 0⟩) (hd : IsExactDb eps x k d) :
    d = 20 * Real.logb 10 eps := by
  unfold IsExactDb at hd
  rw [hd, Finset.sum_eq_zero, norm_zero, zero_add]
  intro n hn
  have hn' : n < x.length := Finset.mem_range.1 hn
  have : x.getD n ⟨0, 0⟩ = ⟨0, 0⟩ := h _ (by simp [List.getD, hn'])
  rw [this]; simp

/-- P3's second half: every bin is within TOL_DB of the exact value. For the all-zero vector the
nearest word is at least as near as the engine's. -/
theorem dbNum_accurate {p : Params} (hp : p.Legal) {x : List Sample} {k : Nat} {d : ℝ}
    (hl : x.length ≤ 32768) (hx : ∀ s ∈ x, s.InRange) (hk : k < x.length) (hd : IsExactDb p.eps.value x k d) :
    |(value64 (dbNum p x k) : ℝ) - d| ≤ Config.engine.tolDb p.eps := by
  have heng := Config.engine.accurate p.eps x k d hp.eps_pos hl hx hk hd
  unfold dbNum; split
  · rename_i hz
    have hz' := (allZero_iff x).1 hz
    have := hp.epsWord_nearest.2 (Config.engine.word p.eps x k) (Config.engine.finite _ _ _)
    rw [← isExactDb_of_allZero hz' hd] at this
    exact this.trans heng
  · exact heng

/-! ### The default build (R7) is one that R8 and P2 allow -/

theorem value64_default : value64 ({} : Params).epsWord = -120 := by
  have he : (0xC05E000000000000#64).extractLsb' 52 11 = 1029#11 := by decide
  have hf : (0xC05E000000000000#64).extractLsb' 0 52 = 3940649673949184#52 := by decide
  have hs : (0xC05E000000000000#64).msb = true := by decide
  unfold value64
  simp only [he, hf, hs]
  norm_num

theorem eps_value_default : ({} : Params).eps.value = 1 / 1000000 := by
  simp [Eps.value]

theorem logb_default : 20 * Real.logb 10 ({} : Params).eps.value = -120 := by
  have h : ({} : Params).eps.value = 10 ^ (-6 : ℝ) := by
    rw [eps_value_default, Real.rpow_neg (by norm_num), show (6 : ℝ) = ((6 : ℕ) : ℝ) by norm_num,
      Real.rpow_natCast]
    norm_num
  rw [h, Real.logb_rpow (by norm_num) (by norm_num)]; norm_num

theorem legal_default : ({} : Params).Legal where
  maxPayloadHw_le := by decide
  eps_pos := by rw [eps_value_default]; norm_num
  epsWord_nearest := by
    refine ⟨by decide, fun v _ => ?_⟩
    rw [logb_default, value64_default]; simp

end Sys2Proof.Machine
end

