-- ==== Sys2Proof/Laws/Framer.lean ====
section
/-! SUPPORT. The framer's decision: when each check of R110 decides, which decisions a longer buffer keeps, what quiescent, held and enabled come to. -/

namespace Sys2Proof.Machine

/-! ### The ordered checks, one lemma for each outcome -/

theorem frDecide_waitHdr_iff {buf : List Byte} {m c : Word} :
    frDecide buf m c = .waitHdr ↔ buf.length < 8 := by
  unfold frDecide; split
  · simp [*]
  · simp only [*, iff_false]; (repeat' split) <;> simp

theorem frDecide_drop1_iff {buf : List Byte} {m c : Word} :
    frDecide buf m c = .drop1 ↔ 8 ≤ buf.length ∧ u32le buf 0 ≠ m := by
  unfold frDecide; split
  · simp; omega
  · simp only []
    split
    · simp [*]; omega
    · rename_i h; simp only [ne_eq, not_not] at h
      simp only [h, ne_eq, not_true, and_false, iff_false]; (repeat' split) <;> simp

theorem frDecide_drop4_iff {buf : List Byte} {m c len : Word} :
    frDecide buf m c = .drop4 len ↔
      8 ≤ buf.length ∧ u32le buf 0 = m ∧ u32le buf 4 = len ∧ c.toNat < len.toNat := by
  unfold frDecide; split
  · simp; omega
  · simp only []
    split
    · simp_all
    · rename_i h8 h; simp only [ne_eq, not_not] at h
      have h8' : 8 ≤ buf.length := by omega
      split
      · rename_i hc
        simp only [FrDecision.drop4.injEq, h, h8', true_and]
        constructor
        · rintro rfl; exact ⟨rfl, hc⟩
        · rintro ⟨rfl, _⟩; rfl
      · rename_i hc
        have : ¬ (u32le buf 4 = len ∧ c.toNat < len.toNat) := by rintro ⟨rfl, h'⟩; exact hc h'
        simp only [this, and_false, iff_false]; split <;> simp

theorem frDecide_waitPay_iff {buf : List Byte} {m c len : Word} :
    frDecide buf m c = .waitPay len ↔
      8 ≤ buf.length ∧ u32le buf 0 = m ∧ u32le buf 4 = len ∧ len.toNat ≤ c.toNat ∧
        buf.length < 8 + len.toNat := by
  unfold frDecide; split
  · simp; omega
  · simp only []
    split
    · simp_all
    · rename_i h8 h; simp only [ne_eq, not_not] at h
      have h8' : 8 ≤ buf.length := by omega
      split
      · rename_i hc
        simp only [reduceCtorEq, false_iff]; rintro ⟨_, _, rfl, h', _⟩; omega
      · rename_i hc
        split
        · simp only [FrDecision.waitPay.injEq, h, h8', true_and]
          constructor
          · rintro rfl; exact ⟨rfl, by omega, by assumption⟩
          · rintro ⟨rfl, _⟩; rfl
        · simp only [reduceCtorEq, false_iff]; rintro ⟨_, _, rfl, _, h'⟩; omega

theorem frDecide_emit_iff {buf : List Byte} {m c len : Word} :
    frDecide buf m c = .emit len ↔
      u32le buf 0 = m ∧ u32le buf 4 = len ∧ len.toNat ≤ c.toNat ∧ 8 + len.toNat ≤ buf.length := by
  unfold frDecide; split
  · simp; omega
  · simp only []
    split
    · simp_all
    · rename_i h8 h; simp only [ne_eq, not_not] at h
      split
      · rename_i hc
        simp only [reduceCtorEq, false_iff]; rintro ⟨_, rfl, h', _⟩; omega
      · rename_i hc
        split
        · simp only [reduceCtorEq, false_iff]; rintro ⟨_, rfl, _, h'⟩; omega
        · simp only [FrDecision.emit.injEq, h, true_and]
          constructor
          · rintro rfl; exact ⟨rfl, by omega, by omega⟩
          · rintro ⟨rfl, _⟩; rfl

/-! ### A longer buffer -/

/-- The bytes a decision reads stay where they are when the buffer grows at its end. -/
theorem u32le_append {buf : List Byte} {o : Nat} (h : o + 4 ≤ buf.length) (more : List Byte) :
    u32le (buf ++ more) o = u32le buf o := by
  have hg : ∀ k, k < buf.length → (buf ++ more).getD k 0#8 = buf.getD k 0#8 := by
    intro k hk; simp [List.getD, List.getElem?_append_left hk]
  simp only [u32le, hg _ (show o + 3 < buf.length by omega), hg _ (show o + 2 < buf.length by omega),
    hg _ (show o + 1 < buf.length by omega), hg _ (show o < buf.length by omega)]

/-- A decision that is no wait does not change when bytes are appended. -/
theorem frDecide_append {buf : List Byte} {m c : Word} (more : List Byte)
    (h : (frDecide buf m c).isWait = false) : frDecide (buf ++ more) m c = frDecide buf m c := by
  cases hd : frDecide buf m c with
  | waitHdr => simp [hd, FrDecision.isWait] at h
  | waitPay len => simp [hd, FrDecision.isWait] at h
  | drop1 =>
    obtain ⟨h8, hm⟩ := frDecide_drop1_iff.1 hd
    refine frDecide_drop1_iff.2 ⟨by simp; omega, ?_⟩
    rwa [u32le_append (by omega)]
  | drop4 len =>
    obtain ⟨h8, hm, hl, hc⟩ := frDecide_drop4_iff.1 hd
    refine frDecide_drop4_iff.2 ⟨by simp; omega, ?_, ?_, hc⟩
    · rwa [u32le_append (by omega)]
    · rwa [u32le_append (by omega)]
  | emit len =>
    obtain ⟨hm, hl, hc, h8⟩ := frDecide_emit_iff.1 hd
    refine frDecide_emit_iff.2 ⟨?_, ?_, hc, by simp; omega⟩
    · rwa [u32le_append (by omega)]
    · rwa [u32le_append (by omega)]

/-! ### Quiescent, held, enabled -/

theorem isWait_iff (d : FrDecision) : d.isWait = true ↔ d = .waitHdr ∨ ∃ len, d = .waitPay len := by
  cases d <;> simp [FrDecision.isWait]

theorem isEmit_iff (d : FrDecision) : d.isEmit = true ↔ ∃ len, d = .emit len := by
  cases d <;> simp [FrDecision.isEmit]

theorem quiescent_iff (s : State) :
    s.quiescent = true ↔ s.decision = .waitHdr ∨ ∃ len, s.decision = .waitPay len := isWait_iff _

theorem emitReady_iff (s : State) :
    s.emitReady = true ↔ s.xfBusy = false ∧ (s.ctrl.capEn = false ∨ s.port.capReady = true) := by
  simp [State.emitReady]

theorem held_iff (s : State) :
    s.held = true ↔ (∃ len, s.decision = .emit len) ∧ s.emitReady = false := by
  simp [State.held, isEmit_iff]

/-- The framer has an enabled step exactly when it drops, or emits and is not held. -/
theorem frmEnabled_iff (s : State) :
    s.frmEnabled = true ↔ s.decision = .drop1 ∨ (∃ len, s.decision = .drop4 len) ∨
      ((∃ len, s.decision = .emit len) ∧ s.emitReady = true) := by
  unfold State.frmEnabled State.quiescent State.held
  cases s.decision <;> simp [FrDecision.isWait, FrDecision.isEmit]

theorem settled_iff (s : State) : s.settled = true ↔ s.frmEnabled = false ∧ s.xfBusy = false := by
  simp [State.settled]

end Sys2Proof.Machine
end

