-- ==== Sys2Proof/Laws/Exec.lean ====
section
/-! SUPPORT. What an operation can do, once for each: with its guard and without it; which operations stop. -/

namespace Sys2Proof.Machine

/-! ### Ingress -/

theorem exec_inData (b : Byte) (s : State) :
    exec (.inData b) s = .next (if s.dataReady then s.appendByte b else s) :=
  (apply_ite Host.Outcome.next _ _ _).symm

theorem exec_inEos (b : Byte) (s : State) :
    exec (.inEos b) s = .next (if s.closeReady then s.raise (.disc .eos) else s) :=
  (apply_ite Host.Outcome.next _ _ _).symm

theorem exec_inErr (b : Byte) (s : State) :
    exec (.inErr b) s = .next (if s.closeReady then s.raise (.disc .err) else s) :=
  (apply_ite Host.Outcome.next _ _ _).symm

theorem dataReady_iff (s : State) :
    s.dataReady = true ↔ s.ctrl.en = true ∧ s.runState = .running ∧ s.buf.length < s.params.bufCap := by
  simp [State.dataReady, State.ingressOpen, and_assoc]

theorem closeReady_iff (s : State) :
    s.closeReady = true ↔ s.ctrl.en = true ∧ s.runState = .running ∧ s.quiescent = true := by
  simp [State.closeReady, State.ingressOpen, and_assoc]

/-! ### The framer, by its decision -/

theorem exec_frDrop1 (s : State) :
    exec .frDrop1 s = .next (if s.decision = .drop1 then (s.dropHead 1).raise .resync else s) :=
  (apply_ite Host.Outcome.next _ _ _).symm

theorem exec_frDrop4 (len : Word) (s : State) :
    exec (.frDrop4 len) s = .next (if s.decision = .drop4 len then (s.dropHead 4).raise .lenRej else s) :=
  (apply_ite Host.Outcome.next _ _ _).symm

theorem exec_frEmit (len : Word) (s : State) :
    exec (.frEmit len) s =
      .next (if s.decision = .emit len ∧ s.emitReady then s.emitFrame len.toNat else s) :=
  (apply_ite Host.Outcome.next _ _ _).symm

theorem exec_decision_drop1 {s : State} (h : s.decision = .drop1) :
    exec s.decision.toInstr s = .next ((s.dropHead 1).raise .resync) := by
  rw [h]; simp [FrDecision.toInstr, exec_frDrop1, h]

theorem exec_decision_drop4 {s : State} {len : Word} (h : s.decision = .drop4 len) :
    exec s.decision.toInstr s = .next ((s.dropHead 4).raise .lenRej) := by
  rw [h]; simp [FrDecision.toInstr, exec_frDrop4, h]

theorem exec_decision_emit {s : State} {len : Word} (h : s.decision = .emit len)
    (hr : s.emitReady = true) : exec s.decision.toInstr s = .next (s.emitFrame len.toNat) := by
  rw [h]; simp [FrDecision.toInstr, exec_frEmit, h, hr]

theorem exec_decision_of_not_enabled {s : State} (h : s.frmEnabled = false) :
    exec s.decision.toInstr s = .next s := by
  have h' : ¬ s.frmEnabled = true := by simp [h]
  rw [frmEnabled_iff] at h'
  cases hd : s.decision with
  | waitHdr => rfl
  | waitPay len => rfl
  | drop1 => exact absurd (.inl hd) h'
  | drop4 len => exact absurd (.inr (.inl ⟨len, hd⟩)) h'
  | emit len =>
    have : ¬ s.emitReady = true := fun hr => h' (.inr (.inr ⟨⟨len, hd⟩, hr⟩))
    simp [FrDecision.toInstr, exec_frEmit, this]

/-! ### The engine -/

/-- The state XF_DONE leaves when the engine is busy (R135). -/
theorem exec_xfDone (s : State) :
    exec .xfDone s = .next (if s.xfBusy then
      (((s.publish s.nextSpectrum).countOdd s.xfPayload.length).raise .newSpec).engineIdle else s) :=
  (apply_ite Host.Outcome.next _ _ _).symm

/-! ### Reads and stops -/

/-- Every operation but BUS_BAD answers a next state, in every state. -/
theorem exec_total (i : Instr) (s : State) :
    (∃ t, exec i s = .next t) ∨ ∃ sel v l, i = .busBad sel v l := by
  cases i with
  | inData b => exact .inl ⟨_, exec_inData b s⟩
  | inEos b => exact .inl ⟨_, exec_inEos b s⟩
  | inErr b => exact .inl ⟨_, exec_inErr b s⟩
  | frDrop1 => exact .inl ⟨_, exec_frDrop1 s⟩
  | frDrop4 len => exact .inl ⟨_, exec_frDrop4 len s⟩
  | frEmit len => exact .inl ⟨_, exec_frEmit len s⟩
  | xfDone => exact .inl ⟨_, exec_xfDone s⟩
  | busBad sel v l => exact .inr ⟨sel, v, l, rfl⟩
  | _ => exact .inl ⟨_, rfl⟩

/-- The host reads: what leaves everything but bus_rdata alone. -/
def IsRead : Instr → Prop
  | .rdCtrl | .rdStatus | .rdEvents | .rdIrqEn | .rdMagic | .rdMaxPayload | .rdBufLevel | .rdPubSeq
  | .rdPubNbins | .rdViewSeq | .rdViewNbins | .rdBytesIn | .rdResyncDrops | .rdLenRejects
  | .rdFramesOk | .rdDiscarded | .rdCapErrs | .rdSpectra | .rdOddTrunc | .rdBin _ _ | .rdRsvd _ => True
  | .inData _ | .inEos _ | .inErr _ | .frWaitHdr | .frDrop1 | .frDrop4 _ | .frWaitPay _ | .frEmit _
  | .xfDone | .wrCtrl _ | .wrEvents _ | .wrIrqEn _ | .wrMaxPayload _ | .wrRo _ _ | .wrRsvd _ _
  | .busBad _ _ _ | .reset => False

theorem exec_read {i : Instr} (h : IsRead i) (s : State) :
    ∃ v, exec i s = .next (s.busReturn v) := by
  cases i <;> first | exact ⟨_, rfl⟩ | exact h.elim

/-- Everything an operation can do: one shape of next state for each. -/
theorem exec_cases {i : Instr} {s t : State} (h : exec i s = .next t) :
    t = s ∨
    (∃ b, i = .inData b ∧ s.dataReady = true ∧ t = s.appendByte b) ∨
    (∃ b, i = .inEos b ∧ s.closeReady = true ∧ t = s.raise (.disc .eos)) ∨
    (∃ b, i = .inErr b ∧ s.closeReady = true ∧ t = s.raise (.disc .err)) ∨
    (i = .frDrop1 ∧ s.decision = .drop1 ∧ t = (s.dropHead 1).raise .resync) ∨
    (∃ len, i = .frDrop4 len ∧ s.decision = .drop4 len ∧ t = (s.dropHead 4).raise .lenRej) ∨
    (∃ len, i = .frEmit len ∧ s.decision = .emit len ∧ s.emitReady = true ∧ t = s.emitFrame len.toNat) ∨
    (i = .xfDone ∧ s.xfBusy = true ∧
      t = (((s.publish s.nextSpectrum).countOdd s.xfPayload.length).raise .newSpec).engineIdle) ∨
    (IsRead i ∧ ∃ v, t = s.busReturn v) ∨
    (∃ v, i = .wrCtrl v ∧ t = s.writeCtrl (ctrlFields v)) ∨
    (∃ v, i = .wrEvents v ∧ t = s.clearEvents (eventBits v)) ∨
    (∃ v, i = .wrIrqEn v ∧ t = s.setIrqEn (eventBits v)) ∨
    (∃ v, i = .wrMaxPayload v ∧ t = s.setCeiling v) ∨
    (i = .reset ∧ t = State.resetWith s.params s.port) := by
  cases i with
  | inData b =>
    rw [exec_inData] at h; split at h <;> cases h
    · exact .inr (.inl ⟨b, rfl, ‹_›, rfl⟩)
    · exact .inl rfl
  | inEos b =>
    rw [exec_inEos] at h; split at h <;> cases h
    · exact .inr (.inr (.inl ⟨b, rfl, ‹_›, rfl⟩))
    · exact .inl rfl
  | inErr b =>
    rw [exec_inErr] at h; split at h <;> cases h
    · exact .inr (.inr (.inr (.inl ⟨b, rfl, ‹_›, rfl⟩)))
    · exact .inl rfl
  | frWaitHdr => cases h; exact .inl rfl
  | frWaitPay len => cases h; exact .inl rfl
  | frDrop1 =>
    rw [exec_frDrop1] at h; split at h <;> cases h
    · exact .inr (.inr (.inr (.inr (.inl ⟨rfl, ‹_›, rfl⟩))))
    · exact .inl rfl
  | frDrop4 len =>
    rw [exec_frDrop4] at h; split at h <;> cases h
    · exact .inr (.inr (.inr (.inr (.inr (.inl ⟨len, rfl, ‹_›, rfl⟩)))))
    · exact .inl rfl
  | frEmit len =>
    rw [exec_frEmit] at h; split at h <;> cases h
    · rename_i hc
      exact .inr (.inr (.inr (.inr (.inr (.inr (.inl ⟨len, rfl, hc.1, hc.2, rfl⟩))))))
    · exact .inl rfl
  | xfDone =>
    rw [exec_xfDone] at h; split at h <;> cases h
    · exact .inr (.inr (.inr (.inr (.inr (.inr (.inr (.inl ⟨rfl, ‹_›, rfl⟩)))))))
    · exact .inl rfl
  | wrRo a v => cases h; exact .inl rfl
  | wrRsvd a v => cases h; exact .inl rfl
  | wrCtrl v => cases h; simp [IsRead]
  | wrEvents v => cases h; simp [IsRead]
  | wrIrqEn v => cases h; simp [IsRead]
  | wrMaxPayload v => cases h; simp [IsRead]
  | busBad sel v l => cases h
  | reset => cases h; simp [IsRead]
  | _ => cases h; exact .inr (.inr (.inr (.inr (.inr (.inr (.inr (.inr (.inl ⟨trivial, _, rfl⟩))))))))

end Sys2Proof.Machine
end

