-- ==== Sys2Proof/Laws/Ops.lean ====
section
/-! SUPPORT. What the composed operations of Machine/Ops.lean leave in each field: a CTRL write, the tee, an emit, a published spectrum. -/

namespace Sys2Proof.Machine

variable (s : State)

/-! ### A CTRL write (R152 to R155) -/

section
variable (w : CtrlWrite)

/-- The four parts of a CTRL write unfolded, for the lemmas below. -/
theorem writeCtrl_eq : s.writeCtrl w =
    (fun s3 => if w.clrCnt then s3.clrCnt else s3)
      ((fun s2 => if w.snap then s2.snap else s2)
        ((fun s1 => if w.restart then s1.restart else s1) (s.setCtrl w.en w.capEn))) := rfl

@[simp] theorem writeCtrl_params : (s.writeCtrl w).params = s.params := by
  simp only [writeCtrl_eq]; split <;> split <;> split <;> rfl
@[simp] theorem writeCtrl_ctrl : (s.writeCtrl w).ctrl = ⟨w.en, w.capEn⟩ := by
  simp only [writeCtrl_eq]; split <;> split <;> split <;> rfl
@[simp] theorem writeCtrl_xfBusy : (s.writeCtrl w).xfBusy = s.xfBusy := by
  simp only [writeCtrl_eq]; split <;> split <;> split <;> rfl
@[simp] theorem writeCtrl_xfIn : (s.writeCtrl w).xfIn = s.xfIn := by
  simp only [writeCtrl_eq]; split <;> split <;> split <;> rfl
@[simp] theorem writeCtrl_pub : (s.writeCtrl w).pub = s.pub := by
  simp only [writeCtrl_eq]; split <;> split <;> split <;> rfl
@[simp] theorem writeCtrl_events : (s.writeCtrl w).events = s.events := by
  simp only [writeCtrl_eq]; split <;> split <;> split <;> rfl
@[simp] theorem writeCtrl_irqEn : (s.writeCtrl w).irqEn = s.irqEn := by
  simp only [writeCtrl_eq]; split <;> split <;> split <;> rfl
@[simp] theorem writeCtrl_maxPayload : (s.writeCtrl w).maxPayload = s.maxPayload := by
  simp only [writeCtrl_eq]; split <;> split <;> split <;> rfl
@[simp] theorem writeCtrl_port : (s.writeCtrl w).port = s.port := by
  simp only [writeCtrl_eq]; split <;> split <;> split <;> rfl

theorem writeCtrl_buf : (s.writeCtrl w).buf = if w.restart then [] else s.buf := by
  simp only [writeCtrl_eq]; split <;> split <;> split <;> simp [*]
theorem writeCtrl_headPos : (s.writeCtrl w).headPos = if w.restart then 0 else s.headPos := by
  simp only [writeCtrl_eq]; split <;> split <;> split <;> simp [*]
theorem writeCtrl_runState : (s.writeCtrl w).runState = if w.restart then .running else s.runState := by
  simp only [writeCtrl_eq]; split <;> split <;> split <;> simp [*]
theorem writeCtrl_discCause : (s.writeCtrl w).discCause = if w.restart then .none else s.discCause := by
  simp only [writeCtrl_eq]; split <;> split <;> split <;> simp [*]
theorem writeCtrl_view : (s.writeCtrl w).view = if w.snap then s.pub else s.view := by
  simp only [writeCtrl_eq]; split <;> split <;> split <;> simp [*]
theorem writeCtrl_cnt : (s.writeCtrl w).cnt =
    if w.clrCnt then Counters.zero
    else if w.restart then { s.cnt with discarded := s.cnt.discarded + BitVec.ofNat 32 s.buf.length }
    else s.cnt := by
  simp only [writeCtrl_eq]; split <;> split <;> split <;> simp [*]

end

/-! ### The tee and the emit (R116) -/

section
variable (p : List Byte)

theorem tee_events : (s.tee p).events =
    if s.ctrl.capEn = true ∧ s.port.capResp = .fail then s.events ||| Event.capErr.bit else s.events := by
  unfold State.tee
  cases h : s.ctrl.capEn <;> cases hr : s.port.capResp <;> simp

theorem tee_cnt : (s.tee p).cnt =
    if s.ctrl.capEn = true ∧ s.port.capResp = .fail then { s.cnt with capErrs := s.cnt.capErrs + 1#32 }
    else s.cnt := by
  unfold State.tee
  cases h : s.ctrl.capEn <;> cases hr : s.port.capResp <;> simp

theorem tee_port : (s.tee p).port =
    { s.port with capLog := if s.ctrl.capEn then s.port.capLog ++ [⟨p.length, p⟩] else s.port.capLog } := by
  unfold State.tee
  cases h : s.ctrl.capEn <;> cases hr : s.port.capResp <;> simp

end

theorem emitFrame_events (n : Nat) : (s.emitFrame n).events =
    if s.ctrl.capEn = true ∧ s.port.capResp = .fail then s.events ||| Event.capErr.bit else s.events := by
  simp [State.emitFrame, tee_events]

theorem emitFrame_cnt (n : Nat) : (s.emitFrame n).cnt = { s.cnt with
    framesOk := s.cnt.framesOk + 1#32
    capErrs := if s.ctrl.capEn = true ∧ s.port.capResp = .fail then s.cnt.capErrs + 1#32 else s.cnt.capErrs } := by
  simp only [State.emitFrame, countFrame_cnt, dropHead_cnt, handPayload_cnt, tee_cnt]
  split <;> rfl

theorem emitFrame_port (n : Nat) : (s.emitFrame n).port = { s.port with
    capLog := if s.ctrl.capEn then s.port.capLog ++ [⟨(payloadOf s.buf n).length, payloadOf s.buf n⟩]
      else s.port.capLog } := by
  simp [State.emitFrame, tee_port]

/-- The payload of a decided emit is the `len` bytes behind the header. -/
theorem payloadOf_length {len : Word} (h : s.decision = .emit len) :
    (payloadOf s.buf len.toNat).length = len.toNat := by
  obtain ⟨-, -, -, h8⟩ := frDecide_emit_iff.1 h
  simp [payloadOf, Config.hdrLen]; omega

/-! ### Spectra -/

theorem nextSpectrum_of_payload {payload : List Byte} (h : s.xfIn = some payload) :
    s.nextSpectrum = ⟨true, s.pub.seq + 1#32, payload.length / 2, spectrumBins s.params payload⟩ := by
  simp [State.nextSpectrum, State.xfPayload, h]

theorem countOdd_zero : s.countOdd 0 = s := by simp [State.countOdd]

end Sys2Proof.Machine
end

