-- ==== Sys2Proof/Laws/PerInstr.lean ====
section
/-! SUPPORT. One lemma for each operation about its encoding: the bits stand on the port of the agent that takes the operation (spec/10_state.md R47, spec/30_encoding.md R84). -/

namespace Sys2Proof.Laws.EncodesOnItsPort

/-- The agent that takes the operation (spec/60_exceptions.md R219). -/
def agentOf : Instr → Agent
  | .inData _ | .inEos _ | .inErr _ => .ing
  | .frWaitHdr | .frDrop1 | .frDrop4 _ | .frWaitPay _ | .frEmit _ => .frm
  | .xfDone => .xf
  | .rdCtrl | .wrCtrl _ | .rdStatus | .rdEvents | .wrEvents _ | .rdIrqEn | .wrIrqEn _ | .rdMagic
   | .rdMaxPayload | .wrMaxPayload _ | .rdBufLevel | .rdPubSeq | .rdPubNbins | .rdViewSeq
   | .rdViewNbins | .rdBytesIn | .rdResyncDrops | .rdLenRejects | .rdFramesOk | .rdDiscarded
   | .rdCapErrs | .rdSpectra | .rdOddTrunc | .rdBin _ _ | .wrRo _ _ | .rdRsvd _ | .wrRsvd _ _
   | .busBad _ _ _ => .host
  | .reset => .rst

/-- The agent whose port carries the bits. -/
def portOf : PortWord → Agent
  | .beat _ => .ing
  | .access _ => .host
  | .window _ _ => .frm
  | .engine => .xf
  | .rst => .rst

/-- The operation's encoding stands on its own agent's port, whatever MAGIC and the ceiling are. -/
def Statement (i : Instr) : Prop := ∀ c : FrameCtx, portOf (encode c i) = agentOf i

theorem inData (b : Byte) : Statement (.inData b) := fun _ => rfl
theorem inEos (b : Byte) : Statement (.inEos b) := fun _ => rfl
theorem inErr (b : Byte) : Statement (.inErr b) := fun _ => rfl
theorem frWaitHdr : Statement .frWaitHdr := fun _ => rfl
theorem frDrop1 : Statement .frDrop1 := fun _ => rfl
theorem frDrop4 (len : Word) : Statement (.frDrop4 len) := fun _ => rfl
theorem frWaitPay (len : Word) : Statement (.frWaitPay len) := fun _ => rfl
theorem frEmit (len : Word) : Statement (.frEmit len) := fun _ => rfl
theorem xfDone : Statement .xfDone := fun _ => rfl
theorem rdCtrl : Statement .rdCtrl := fun _ => rfl
theorem wrCtrl (v : Word) : Statement (.wrCtrl v) := fun _ => rfl
theorem rdStatus : Statement .rdStatus := fun _ => rfl
theorem rdEvents : Statement .rdEvents := fun _ => rfl
theorem wrEvents (v : Word) : Statement (.wrEvents v) := fun _ => rfl
theorem rdIrqEn : Statement .rdIrqEn := fun _ => rfl
theorem wrIrqEn (v : Word) : Statement (.wrIrqEn v) := fun _ => rfl
theorem rdMagic : Statement .rdMagic := fun _ => rfl
theorem rdMaxPayload : Statement .rdMaxPayload := fun _ => rfl
theorem wrMaxPayload (v : Word) : Statement (.wrMaxPayload v) := fun _ => rfl
theorem rdBufLevel : Statement .rdBufLevel := fun _ => rfl
theorem rdPubSeq : Statement .rdPubSeq := fun _ => rfl
theorem rdPubNbins : Statement .rdPubNbins := fun _ => rfl
theorem rdViewSeq : Statement .rdViewSeq := fun _ => rfl
theorem rdViewNbins : Statement .rdViewNbins := fun _ => rfl
theorem rdBytesIn : Statement .rdBytesIn := fun _ => rfl
theorem rdResyncDrops : Statement .rdResyncDrops := fun _ => rfl
theorem rdLenRejects : Statement .rdLenRejects := fun _ => rfl
theorem rdFramesOk : Statement .rdFramesOk := fun _ => rfl
theorem rdDiscarded : Statement .rdDiscarded := fun _ => rfl
theorem rdCapErrs : Statement .rdCapErrs := fun _ => rfl
theorem rdSpectra : Statement .rdSpectra := fun _ => rfl
theorem rdOddTrunc : Statement .rdOddTrunc := fun _ => rfl
theorem rdBin (k : BitVec 15) (high : Bool) : Statement (.rdBin k high) := fun _ => rfl
theorem wrRo (a : BitVec 19) (v : Word) : Statement (.wrRo a v) := fun _ => rfl
theorem rdRsvd (a : BitVec 19) : Statement (.rdRsvd a) := fun _ => rfl
theorem wrRsvd (a : BitVec 19) (v : Word) : Statement (.wrRsvd a v) := fun _ => rfl
theorem busBad (sel : BitVec 20) (v : Word) (l : BitVec 4) : Statement (.busBad sel v l) := fun _ => rfl
theorem reset : Statement .reset := fun _ => rfl

end Sys2Proof.Laws.EncodesOnItsPort
end

