-- ==== Sys2Proof/Laws/Step.lean ====
section
/-! SUPPORT. What a step adds around exec: the turn and the handshake change the ports only, and a step that goes on is exec of one operation or a turn that passes. -/

namespace Sys2Proof.Machine

/-- The state of FSE itself, with its ports set aside. -/
def State.withPort (s : State) (q : Ports) : State := { s with port := q }

theorem nextTurn_of_sched {s : State} {t : Turn} {rest : List Turn} (h : s.port.sched = t :: rest) :
    s.nextTurn = t := by simp [State.nextTurn, h]

theorem beginTurn_of_sched {s : State} {a : Agent} {ready : Bool} {resp : CapResp} {rest : List Turn}
    (h : s.port.sched = ⟨a, ready, resp⟩ :: rest) :
    s.beginTurn = { s with port := { s.port with sched := rest, capReady := ready, capResp := resp } } := by
  simp [State.beginTurn, h, State.nextTurn]

theorem beginTurn_eq_withPort (s : State) : s.beginTurn = s.withPort s.beginTurn.port := rfl

theorem handshake_eq_withPort (s : State) (a : Agent) :
    s.handshake a = s.withPort (s.handshake a).port := by
  unfold State.handshake
  cases a
  · cases s.port.inQueue with
    | nil => rfl
    | cons b q => simp only []; split <;> rfl
  all_goals rfl

/-- A step that goes on: the turn passed with the ports alone changed, or one operation ran in a
state that differs from the step's in the ports alone. -/
theorem step_cases {s t : State} (h : step s = .next t) :
    t = s.withPort t.port ∨ ∃ i q, exec i (s.withPort q) = .next t := by
  unfold step at h
  split at h
  · cases h; exact .inl (beginTurn_eq_withPort s)
  · split at h
    · cases h
    · rename_i i _
      refine .inr ⟨i, (s.beginTurn.handshake s.nextTurn.agent).port, ?_⟩
      rw [← h, handshake_eq_withPort s.beginTurn]; rfl

/-! ### What a run does to the input side of the ports -/

/-- An operation leaves every port field but bus_rdata and the record of capture messages. -/
theorem exec_port {i : Instr} {s t : State} (h : exec i s = .next t) :
    t.port = { s.port with busRdata := t.port.busRdata, capLog := t.port.capLog } := by
  rcases exec_cases h with rfl | ⟨_, -, -, rfl⟩ | ⟨_, -, -, rfl⟩ | ⟨_, -, -, rfl⟩ | ⟨-, -, rfl⟩ |
    ⟨_, -, -, rfl⟩ | ⟨_, -, -, -, rfl⟩ | ⟨-, -, rfl⟩ | ⟨-, _, rfl⟩ | ⟨_, -, rfl⟩ | ⟨_, -, rfl⟩ |
    ⟨_, -, rfl⟩ | ⟨_, -, rfl⟩ | ⟨-, rfl⟩
  case inr.inr.inr.inr.inr.inr.inl => rw [emitFrame_port]
  all_goals simp

theorem handshake_sched (s : State) (a : Agent) :
    (s.handshake a).port.sched = s.port.sched ∧ (s.handshake a).port.freeIdx = s.port.freeIdx := by
  unfold State.handshake
  cases a
  · cases s.port.inQueue with
    | nil => exact ⟨rfl, rfl⟩
    | cons b q => simp only []; split <;> exact ⟨rfl, rfl⟩
  all_goals exact ⟨rfl, rfl⟩

/-- A step takes one turn: the schedule's head, or one free turn. -/
theorem step_sched {s t : State} (h : step s = .next t) :
    t.port.sched = s.port.sched.tail ∧
      t.port.freeIdx = if s.port.sched = [] then s.port.freeIdx + 1 else s.port.freeIdx := by
  have hb : s.beginTurn.port.sched = s.port.sched.tail ∧ s.beginTurn.port.freeIdx =
      if s.port.sched = [] then s.port.freeIdx + 1 else s.port.freeIdx := by
    cases hs : s.port.sched <;> simp [State.beginTurn, hs]
  unfold step at h
  split at h
  · cases h; exact hb
  · split at h
    · cases h
    · have hp := exec_port h
      have hh := handshake_sched s.beginTurn s.nextTurn.agent
      rw [hp]; exact ⟨hh.1.trans hb.1, hh.2.trans hb.2⟩

/-- With no beat offered and no access issued a step always goes on, and leaves both lists empty. -/
theorem step_of_no_input {s : State} (hi : s.port.inQueue = []) (hb : s.port.busQueue = []) :
    ∃ t, step s = .next t ∧ t.port.inQueue = [] ∧ t.port.busQueue = [] := by
  have hi' : s.beginTurn.port.inQueue = [] := hi
  have hb' : s.beginTurn.port.busQueue = [] := hb
  have run : ∀ i : Instr, (∀ sel v l, i ≠ .busBad sel v l) →
      ∃ t, exec i s.beginTurn = .next t ∧ t.port.inQueue = [] ∧ t.port.busQueue = [] := by
    intro i hne
    rcases exec_total i s.beginTurn with ⟨t, h⟩ | ⟨sel, v, l, h⟩
    · exact ⟨t, h, by rw [exec_port h]; exact hi', by rw [exec_port h]; exact hb'⟩
    · exact absurd h (hne sel v l)
  unfold step
  cases s.nextTurn.agent with
  | ing => simp only [State.portWord, hi', List.head?_nil, Option.map_none]; exact ⟨_, rfl, hi', hb'⟩
  | host => simp only [State.portWord, hb', List.head?_nil, Option.map_none]; exact ⟨_, rfl, hi', hb'⟩
  | frm =>
    refine run (decodeWindow _ _ _) fun sel v l => ?_
    simp only [decodeWindow]; split_ifs <;> exact Instr.noConfusion
  | xf =>
    by_cases hx : s.beginTurn.xfBusy = true
    · simp only [State.portWord, hx, if_true]; exact run .xfDone (by simp)
    · simp only [State.portWord, hx]; exact ⟨_, rfl, hi', hb'⟩
  | rst => exact run .reset (by simp)

end Sys2Proof.Machine
end

