-- ==== Sys2Proof/Machine/Script.lean ====
section
/-! DEFINITION. Stimulus scripts as data, and their runs under the eager schedule (spec/30_encoding.md R87 to R89, spec/60_exceptions.md R225). -/

namespace Sys2Proof.Machine

/-- One directive of a script (R87). -/
inductive Directive where
  /-- `IN b0 ... bk`: one IN_DATA beat for each byte -/
  | inBytes (bytes : List Byte)
  /-- `EOS` -/
  | eos
  /-- `ERR` -/
  | err
  /-- `WR reg, v` -/
  | wr (addr : BitVec 19) (v : Word)
  /-- `RD reg -> v`; `none` where the script gives no expected result -/
  | rd (addr : BitVec 19) (expected : Option Word)
  /-- `CAPRESP r1 r2 ...`: the answers to the next emits that tee; OK when used up -/
  | capResp (answers : List CapResp)
  /-- `RESET` -/
  | reset
  deriving DecidableEq, Repr

/-- One line of a script: a directive, or a pseudo-directive (R89). -/
inductive Line where
  | directive (d : Directive)
  /-- `HDR m, len` -/
  | hdr (m len : Word)
  /-- `FRAME len, p0 ... p(len-1)`: `len` is the payload's length -/
  | frame (payload : List Byte)
  /-- `ENABLE` -/
  | enable
  /-- `SNAPREAD` -/
  | snapRead
  deriving DecidableEq, Repr

/-- The CTRL word SNAPREAD writes: SNAP with the current EN and CAP_EN (R89). -/
def State.snapWord (s : State) : Word := s.ctrl.word ||| 0x8#32

/-- The two reads of bin `k` (R89). -/
def binReads (k : Nat) : List Directive :=
  [.rd (BitVec.ofNat 19 (0x40000 + 8 * k)) none, .rd (BitVec.ofNat 19 (0x40004 + 8 * k)) none]

/-- A line's expansion (R89) at the settled state in which its first directive's own step is taken:
FRAME takes the build's MAGIC, SNAPREAD the current EN and CAP_EN and reads as many bins as VIEW has
after its CTRL write. -/
def Line.expand (s : State) : Line → List Directive
  | .directive d => [d]
  | .hdr m len => [.inBytes (u32Bytes m ++ u32Bytes len)]
  | .frame payload =>
    [.inBytes (u32Bytes s.params.magic ++ u32Bytes (BitVec.ofNat 32 payload.length)), .inBytes payload]
  | .enable => [.wr 0x000#19 0x1#32]
  | .snapRead =>
    [.wr 0x000#19 s.snapWord, .rd 0x024#19 none, .rd 0x028#19 none]
      ++ (List.range (s.writeCtrl (ctrlFields s.snapWord)).view.nbins).flatMap binReads

/-- A script's run: the state, the capture answers still to give (the next one first), what the reads
returned (the oldest first). -/
structure ScriptRun where
  st : State
  answers : List CapResp
  reads : List Word
  deriving DecidableEq, Repr

/-- How a script's run ends (R88: a directive whose step is not enabled is a script error). -/
inductive ScriptOutcome where
  | done (r : ScriptRun)
  | scriptError (d : Directive)
  /-- a RD at `addr` returned `v`, not the expected result; the run ends there (DESIGN CHOICE, log 24) -/
  | unexpectedRead (addr : BitVec 19) (v : Word)
  | refused (r : Refusal)
  deriving DecidableEq, Repr

/-- The capture sink is ready and shows the next answer of the script (R87). -/
def ScriptRun.pins (r : ScriptRun) : State :=
  { r.st with port := { r.st.port with capReady := true, capResp := r.answers.headD .ok } }

/-- The framer's step under the script's capture answers. -/
def ScriptRun.frm (r : ScriptRun) : ScriptRun :=
  match exec r.pins.decision.toInstr r.pins with
  | .next t =>
    { r with st := t
             answers := if r.pins.decision.isEmit && r.pins.ctrl.capEn then r.answers.tail else r.answers }
  | .fault _ => r
  | .refused _ => r

/-- Framer and engine steps until settled (R88; log 17: the framer first), at most `n` of them. -/
def ScriptRun.settle : Nat → ScriptRun → ScriptRun
  | 0, r => r
  | n + 1, r =>
    if r.pins.frmEnabled then r.frm.settle n
    else if r.st.xfBusy then
      match exec .xfDone r.pins with
      | .next t => { r with st := t }.settle n
      | .fault _ => r
      | .refused _ => r
    else r

/-- Settling takes at most one framer step for each byte of BUF and one engine step for each emit,
and one more for a payload already in the engine. -/
def ScriptRun.settleAll (r : ScriptRun) : ScriptRun := r.settle (2 * r.st.buf.length + 2)

/-- The bytes of one `IN`, settling between them (R88). -/
def ScriptRun.bytes (d : Directive) : List Byte → ScriptRun → ScriptOutcome
  | [], r => .done r
  | b :: bs, r =>
    if r.settleAll.st.dataReady then
      match exec (.inData b) r.settleAll.st with
      | .next t => ScriptRun.bytes d bs { r.settleAll with st := t }
      | .fault _ => .scriptError d
      | .refused e => .refused e
    else .scriptError d

/-- One directive, after settling (R88). A CAPRESP given while answers of an earlier one are unused
puts its answers behind them: DESIGN CHOICE, R87 leaves open whether they queue or replace (log 23).
A RD whose result is not the expected one ends the run, and the rest of the script is not run: DESIGN
CHOICE, R87 gives the expected result and leaves open what then becomes of the run (log 24). -/
def ScriptRun.directive (r : ScriptRun) (d : Directive) : ScriptOutcome :=
  let q := r.settleAll
  match d with
  | .inBytes bs => q.bytes d bs
  | .eos => if q.st.closeReady then .done { q with st := q.st.raise (.disc .eos) } else .scriptError d
  | .err => if q.st.closeReady then .done { q with st := q.st.raise (.disc .err) } else .scriptError d
  | .wr addr v =>
    match exec (decodeAccess (writeAccess addr v)) q.st with
    | .next t => .done { q with st := t }
    | .fault _ => .scriptError d
    | .refused e => .refused e
  | .rd addr expected =>
    match exec (decodeAccess (readAccess addr)) q.st with
    | .next t =>
      if expected = none ∨ expected = some t.port.busRdata then
        .done { q with st := t, reads := q.reads ++ [t.port.busRdata] }
      else .unexpectedRead addr t.port.busRdata
    | .fault _ => .scriptError d
    | .refused e => .refused e
  | .capResp rs => .done { q with answers := q.answers ++ rs }
  | .reset =>
    match exec .reset q.st with
    | .next t => .done { q with st := t }
    | .fault _ => .scriptError d
    | .refused e => .refused e

/-- Directives in order (R88). -/
def ScriptRun.directives : List Directive → ScriptRun → ScriptOutcome
  | [], r => .done r
  | d :: ds, r =>
    match r.directive d with
    | .done q => ScriptRun.directives ds q
    | .scriptError e => .scriptError e
    | .unexpectedRead a v => .unexpectedRead a v
    | .refused e => .refused e

/-- A whole script: each line expanded once FSE is settled before it, and FSE settled after the last
(R88, R89, R225). -/
def ScriptRun.script : List Line → ScriptRun → ScriptOutcome
  | [], r => .done r.settleAll
  | l :: ls, r =>
    match r.settleAll.directives (l.expand r.settleAll.st) with
    | .done q => ScriptRun.script ls q
    | .scriptError e => .scriptError e
    | .unexpectedRead a v => .unexpectedRead a v
    | .refused e => .refused e

/-- A script's run from a state. -/
def runScript (ls : List Line) (s : State) : ScriptOutcome :=
  ScriptRun.script ls ⟨s, [], []⟩

end Sys2Proof.Machine
end

