-- ==== Sys2Proof/Tests/Slice0.lean ====
section
/-! SUPPORT. The model's own tests: ill-formed terms, words written out from the spec's encodings, one step of each operation against spec/95_test_vectors.md, and a witness for the hypotheses of each statement. -/

open Sys2Proof Sys2Proof.Machine

namespace Sys2Proof.Tests

/-! ### Small states -/

/-- The outcome is a next state with the property. -/
def nextHas (o : Result) (p : State → Bool) : Bool :=
  match o with
  | .next t => p t
  | .fault _ => false
  | .refused _ => false

/-- From reset, ingress enabled, BUF holding `buf`. -/
def holding (buf : List Byte) : State := { State.reset with ctrl := ⟨true, false⟩, buf := buf }

/-- The engine busy with a payload. -/
def transforming (payload : List Byte) : State :=
  { holding [] with xfBusy := true, xfIn := some payload }

/-- The header of the default MAGIC with a length below 256. -/
def header (len : Byte) : List Byte := [0x44, 0x52, 0x50, 0x53, len, 0, 0, 0]

/-- The ceiling set by the host. -/
def withCeiling (v : Word) (s : State) : State := { s with maxPayload := v }

/-! ### WellFormed refuses an ill-formed term, one for each check -/

theorem test_wf_drop4_at_ceiling : WellFormed FrameCtx.default (.frDrop4 65536#32) = false := by decide
theorem test_wf_drop4_above_ceiling : WellFormed FrameCtx.default (.frDrop4 65537#32) = true := by decide
theorem test_wf_waitPay_zero : WellFormed FrameCtx.default (.frWaitPay 0#32) = false := by decide
theorem test_wf_waitPay_above : WellFormed FrameCtx.default (.frWaitPay 65537#32) = false := by decide
theorem test_wf_emit_above : WellFormed FrameCtx.default (.frEmit 65537#32) = false := by decide
theorem test_wf_wrRo_ctrl : WellFormed FrameCtx.default (.wrRo 0x000#19 0#32) = false := by decide
theorem test_wf_wrRo_misaligned : WellFormed FrameCtx.default (.wrRo 0x005#19 0#32) = false := by decide
theorem test_wf_rdRsvd_counter : WellFormed FrameCtx.default (.rdRsvd 0x030#19) = false := by decide
theorem test_wf_rdRsvd_window : WellFormed FrameCtx.default (.rdRsvd 0x40000#19) = false := by decide
theorem test_wf_wrRsvd_irqEn : WellFormed FrameCtx.default (.wrRsvd 0x00C#19 0#32) = false := by decide
theorem test_wf_wrRsvd_misaligned : WellFormed FrameCtx.default (.wrRsvd 0x102#19 0#32) = false := by decide
theorem test_wf_busBad_legal : WellFormed FrameCtx.default (.busBad 0x00004#20 0#32 0#4) = false := by decide

/-! ### Words written out from the encodings (R71, R77 to R80, ENC-1 to ENC-15) -/

theorem test_magic_wire_bytes : u32le [0x44, 0x52, 0x50, 0x53] 0 = 0x53505244#32 := by decide
theorem test_magic_wire_bytes_swapped : u32le [0x53, 0x50, 0x52, 0x44] 0 = 0x44525053#32 := by decide
theorem test_length_bytes : u32le [0x00, 0x01, 0x00, 0x00] 0 = 256#32 := by decide
theorem test_header_window : headerWindow (header 4) = 0x0000000453505244#64 := by decide
theorem test_sext8 : [0x00#8, 0x7F#8, 0x80#8, 0x81#8, 0xFC#8, 0xFF#8].map sext8 = [0, 127, -128, -127, -4, -1] := by decide
theorem test_sample_order : samples [0x03, 0xFC] = [⟨3, -4⟩] := by decide
theorem test_odd_byte_is_no_sample : samples [0x05, 0xFB, 0x09] = [⟨5, -5⟩] := by decide
theorem test_decode_inData : decodeBeat 0b0001111111#10 = .ok (.inData 0x7F#8) := by decide
theorem test_decode_inEos : decodeBeat 0b0111111111#10 = .ok (.inEos 0xFF#8) := by decide
theorem test_decode_inErr : decodeBeat 0b1000000001#10 = .ok (.inErr 0x01#8) := by decide
theorem test_decode_kind_11 : decodeBeat 0b1100000000#10 = .error (.reservedBeatKind 0x300#10) := by decide
theorem test_decode_wrCtrl : decodeAccess ⟨0x80000#20, 0x1#32, 0#4⟩ = .wrCtrl 0x1#32 := by decide
theorem test_decode_rdStatus : decodeAccess ⟨0x00004#20, 0#32, 0#4⟩ = .rdStatus := by decide
theorem test_decode_rdBin_low : decodeAccess ⟨0x40008#20, 0#32, 0#4⟩ = .rdBin 1#15 false := by decide
theorem test_decode_rdBin_last_high : decodeAccess ⟨0x7FFFC#20, 0#32, 0#4⟩ = .rdBin 32767#15 true := by decide
theorem test_decode_wrRo_window : decodeAccess ⟨0xC0008#20, 5#32, 0#4⟩ = .wrRo 0x40008#19 5#32 := by decide
theorem test_decode_wrRo_frames : decodeAccess ⟨0x8003C#20, 5#32, 0#4⟩ = .wrRo 0x0003C#19 5#32 := by decide
theorem test_decode_rdRsvd : decodeAccess ⟨0x0002C#20, 0#32, 0#4⟩ = .rdRsvd 0x0002C#19 := by decide
theorem test_decode_wrRsvd : decodeAccess ⟨0x80100#20, 9#32, 0#4⟩ = .wrRsvd 0x00100#19 9#32 := by decide
theorem test_decode_misaligned : decodeAccess ⟨0x00002#20, 0#32, 0#4⟩ = .busBad 0x00002#20 0#32 0#4 := by decide
theorem test_decode_partial : decodeAccess ⟨0x80000#20, 7#32, 0b1110#4⟩ = .busBad 0x80000#20 7#32 0b1110#4 := by decide
theorem test_decode_waitHdr : decodeWindow FrameCtx.default 7 0x0000000453505244#64 = .frWaitHdr := by decide
theorem test_decode_drop1 : decodeWindow FrameCtx.default 9 0x0000045350524400#64 = .frDrop1 := by decide
theorem test_decode_drop4 : decodeWindow ⟨0x53505244#32, 16#32⟩ 8 0x0000001153505244#64 = .frDrop4 17#32 := by decide
theorem test_decode_waitPay : decodeWindow ⟨0x53505244#32, 16#32⟩ 8 0x0000001053505244#64 = .frWaitPay 16#32 := by decide
theorem test_decode_emit : decodeWindow FrameCtx.default 12 0x0000000453505244#64 = .frEmit 4#32 := by decide
theorem test_decode_engine : decode FrameCtx.default .engine = .ok .xfDone := by decide
theorem test_decode_rst : decode FrameCtx.default .rst = .ok .reset := by decide
theorem test_table_word_beat : decodeTableWord 16 0x2FF = some (.inErr 0xFF#8) := by decide
theorem test_table_word_access : decodeTableWord 24 0x80014 = some (.wrMaxPayload 0#32) := by decide
theorem test_fetch_word : step (State.reset.withFetchWord 24 0x00004) =
    .next (State.reset.busReturn 0x80#32) := by rfl

/-! ### One step of each operation (spec/95_test_vectors.md) -/

/-- ING-2. -/
theorem test_inData : nextHas (exec (.inData 0x44#8) (holding [])) (fun t => t.buf == [0x44#8] && t.cnt.bytesIn == 1) := by decide
/-- ING-10. -/
theorem test_inData_count_wraps : nextHas (exec (.inData 0#8)
    { holding [] with cnt := { Counters.zero with bytesIn := 0xFFFFFFFF } }) (fun t => t.cnt.bytesIn == 0) := by decide
/-- ING-4. -/
theorem test_inEos : nextHas (exec (.inEos 0#8) (holding [0x44, 0x52, 0x50, 0x53, 4])) (fun t =>
    t.buf == [] && t.cnt.discarded == 5 && t.statusWord == 0x83#32 && t.events == 2#5) := by decide
/-- ING-6: the emit is held, so the close waits. -/
theorem test_inEos_waits_for_quiescence : nextHas (exec (.inEos 0#8)
    { holding (header 0) with xfBusy := true, xfIn := some [] }) (fun t => t.runState == .running && t.buf == header 0) := by decide
/-- ING-5. -/
theorem test_inErr : nextHas (exec (.inErr 0#8) (holding [])) (fun t => t.statusWord == 0x85#32 && t.cnt.discarded == 0) := by decide
/-- FRM-1. -/
theorem test_frWaitHdr : (holding [0xFF, 0x00, 0x11]).decision = .waitHdr := by decide
/-- FRM-3. -/
theorem test_frDrop1 : nextHas (exec .frDrop1 (holding (0 :: header 4))) (fun t =>
    t.buf == header 4 && t.cnt.resyncDrops == 1 && t.events == 16#5 && t.headPos == 1) := by decide
/-- FRM-9. -/
theorem test_frDrop4 : nextHas (exec (.frDrop4 17#32) (withCeiling 16 (holding (header 17)))) (fun t =>
    t.buf == [0x11, 0, 0, 0] && t.cnt.lenRejects == 1 && t.events == 8#5) := by decide
/-- FRM-11: 8 + len does not wrap. -/
theorem test_frDrop4_no_wrap : (holding [0x44, 0x52, 0x50, 0x53, 0xF8, 0xFF, 0xFF, 0xFF]).decision = .drop4 0xFFFFFFF8#32 := by decide
/-- FRM-8: a length equal to the ceiling is accepted. -/
theorem test_frWaitPay_at_ceiling : (withCeiling 16 (holding (header 16))).decision = .waitPay 16#32 := by decide
/-- FRM-6. -/
theorem test_frEmit : nextHas (exec (.frEmit 4#32) (holding (header 4 ++ [0x7F, 0x80, 0, 0]))) (fun t =>
    t.buf == [] && t.xfIn == some [0x7F, 0x80, 0, 0] && t.xfBusy && t.cnt.framesOk == 1) := by decide
/-- FRM-16. -/
theorem test_frEmit_capture_fails : nextHas (exec (.frEmit 4#32)
    { holding (header 4 ++ [0x7F, 0x80, 0, 0]) with
      ctrl := ⟨true, true⟩, port := { Ports.quiet with capResp := .fail } }) (fun t =>
    t.port.capLog == [⟨4, [0x7F, 0x80, 0, 0]⟩] && t.cnt.capErrs == 1 && t.events == 4#5 && t.xfBusy) := by decide
/-- XF-Z7. -/
theorem test_xfDone_all_zero : nextHas (exec .xfDone (transforming [0, 0, 0, 0, 0, 0, 0x5A])) (fun t =>
    t.pub == ⟨true, 1, 3, [0xC05E000000000000, 0xC05E000000000000, 0xC05E000000000000]⟩ &&
    t.cnt.oddTrunc == 1 && t.cnt.spectra == 1 && t.events == 1#5 && t.xfBusy == false) := by decide
/-- HAZ-7. -/
theorem test_xfDone_seq_wraps : nextHas (exec .xfDone
    { transforming [] with pub := ⟨true, 0xFFFFFFFF, 0, []⟩ }) (fun t => t.pub == ⟨true, 0, 0, []⟩) := by decide
/-- BUS-2. -/
theorem test_rdCtrl : nextHas (exec .rdCtrl { State.reset with ctrl := ⟨true, true⟩ }) (fun t => t.port.busRdata == 3#32) := by decide
/-- BUS-22: CLR_CNT acts after RESTART. -/
theorem test_wrCtrl_order : nextHas (exec (.wrCtrl 0x15#32) (holding [1, 2, 3, 4, 5, 6])) (fun t =>
    t.buf == [] && t.cnt.discarded == 0 && t.ctrl == ⟨true, false⟩) := by decide
/-- BUS-20: SNAP alone clears EN and CAP_EN. -/
theorem test_wrCtrl_snap_only : nextHas (exec (.wrCtrl 0x08#32)
    { State.reset with ctrl := ⟨true, true⟩, pub := ⟨true, 3, 0, []⟩ }) (fun t =>
    t.ctrl == ⟨false, false⟩ && t.view == ⟨true, 3, 0, []⟩) := by decide
/-- BUS-3. -/
theorem test_rdStatus : nextHas (exec .rdStatus State.reset) (fun t => t.port.busRdata == 0x80#32) := by decide
/-- FRM-14: HELD and XF_BUSY. -/
theorem test_rdStatus_held : nextHas (exec .rdStatus { holding (header 0) with xfBusy := true, xfIn := some [] })
    (fun t => t.port.busRdata == 0x48#32) := by decide
/-- BUS-11. -/
theorem test_rdEvents : nextHas (exec .rdEvents { State.reset with events := 0x11#5 }) (fun t =>
    t.port.busRdata == 0x11#32 && t.events == 0x11#5) := by decide
/-- BUS-10. -/
theorem test_wrEvents : nextHas (exec (.wrEvents 1#32) { State.reset with events := 0x11#5 }) (fun t => t.events == 0x10#5) := by decide
/-- BUS-9. -/
theorem test_rdIrqEn : nextHas (exec .rdIrqEn { State.reset with irqEn := 0x1F#5 }) (fun t => t.port.busRdata == 0x1F#32) := by decide
/-- BUS-9, EVT-4. -/
theorem test_wrIrqEn : nextHas (exec (.wrIrqEn 0xFFFFFFFF#32) { State.reset with events := 2#5 }) (fun t => t.irqEn == 0x1F#5 && t.irq) := by decide
/-- BUS-4. -/
theorem test_rdMagic : nextHas (exec .rdMagic State.reset) (fun t => t.port.busRdata == 0x53505244#32) := by decide
/-- BUS-5. -/
theorem test_rdMaxPayload : nextHas (exec .rdMaxPayload State.reset) (fun t => t.port.busRdata == 0x10000#32) := by decide
/-- BUS-7. -/
theorem test_wrMaxPayload_warl : nextHas (exec (.wrMaxPayload 0x20000#32) State.reset) (fun t => t.maxPayload == 0x10000#32) := by decide
/-- BUS-8. -/
theorem test_wrMaxPayload_zero : nextHas (exec (.wrMaxPayload 0#32) State.reset) (fun t => t.maxPayload == 0#32) := by decide
/-- BUS-24. -/
theorem test_rdBufLevel : nextHas (exec .rdBufLevel (holding [0x44, 0x52])) (fun t => t.port.busRdata == 2#32) := by decide

/-- A state whose slots and counters all differ. -/
def distinct : State :=
  { holding [0x44, 0x52] with
    pub := ⟨true, 3, 2, [7, 8]⟩
    view := ⟨true, 7, 2, [0xC05E000000000000, 0x402BF57427E69208]⟩
    cnt := ⟨11, 12, 13, 14, 15, 16, 17, 18⟩ }

/-- BUS-19. -/
theorem test_rdPubSeq : nextHas (exec .rdPubSeq distinct) (fun t => t.port.busRdata == 3#32) := by decide
theorem test_rdPubNbins : nextHas (exec .rdPubNbins { distinct with pub := ⟨true, 3, 1, [7]⟩ }) (fun t => t.port.busRdata == 1#32) := by decide
theorem test_rdViewSeq : nextHas (exec .rdViewSeq distinct) (fun t => t.port.busRdata == 7#32) := by decide
theorem test_rdViewNbins : nextHas (exec .rdViewNbins distinct) (fun t => t.port.busRdata == 2#32) := by decide
/-- R170 to R177: each offset reads its own counter. -/
theorem test_counter_reads : [0x00030#20, 0x00034#20, 0x00038#20, 0x0003C#20, 0x00040#20, 0x00044#20, 0x00048#20, 0x0004C#20].map
    (fun t => nextHas (exec (decodeAccess ⟨t, 0#32, 0#4⟩) distinct) (fun u => u.port.busRdata == 11#32 + (t.setWidth 32 - 0x30#32) / 4#32)) =
    List.replicate 8 true := by decide
/-- BUS-15. -/
theorem test_rdBin : [0x40000#20, 0x40004#20, 0x40008#20, 0x4000C#20, 0x40010#20].map
    (fun t => nextHas (exec (decodeAccess ⟨t, 0#32, 0#4⟩) distinct) (fun u => [0x00000000#32, 0xC05E0000#32, 0x27E69208#32, 0x402BF574#32, 0#32].getD
      ((t.toNat - 0x40000) / 4) 1#32 == u.port.busRdata)) = List.replicate 5 true := by decide
/-- BUS-16. -/
theorem test_wrRo : nextHas (exec (.wrRo 0x03C#19 5#32) distinct) (fun t => t == distinct) := by decide
/-- BUS-12. -/
theorem test_rdRsvd : nextHas (exec (.rdRsvd 0x3FFFC#19) distinct) (fun t => t.port.busRdata == 0#32) := by decide
/-- BUS-13. -/
theorem test_wrRsvd : nextHas (exec (.wrRsvd 0x100#19 0xDEADBEEF#32) distinct) (fun t => t == distinct) := by decide
/-- BUS-18. -/
theorem test_busBad : exec (.busBad 0x00002#20 0#32 0#4) State.reset = .refused .busContract := by rfl
/-- RST-1. -/
theorem test_reset : nextHas (exec .reset { distinct with events := 0x1F#5, irqEn := 5#5, runState := .disconnected, discCause := .eos })
    (fun t => t == State.reset) := by decide
/-- RST-2: a payload in the engine is never published. -/
theorem test_reset_drops_payload : nextHas (exec .reset (transforming [1, 0])) (fun t => t.xfBusy == false && t.pub.valid == false) := by decide
/-- ING-1 in a script (R88): a byte that the port does not take is a script error. -/
theorem test_script_not_enabled : runScript [.directive (.inBytes [0x44])] State.reset = .scriptError (.inBytes [0x44]) := by decide
/-- BUS-3 in a script (R87): a read with an expected result. -/
theorem test_script_read : runScript [.directive (.rd 0x004#19 (some 0x81#32))] State.reset = .unexpectedRead 0x004#19 0x80#32 := by decide

/-- R89: SNAPREAD after an unsettled state reads the spectrum the engine publishes while FSE settles,
here XF-Z2's one bin (VIEW_SEQ, VIEW_NBINS, low word, high word), and keeps EN. -/
theorem test_script_snapRead : (match runScript [.snapRead] (transforming [0, 0]) with
    | .done r => r.reads == [1#32, 1#32, 0x00000000#32, 0xC05E0000#32] && r.st.ctrl == ⟨true, false⟩
    | .scriptError _ => false
    | .unexpectedRead _ _ => false
    | .refused _ => false) = true := by decide

/-! ### Witnesses: the hypotheses of each statement hold together somewhere -/

/-- A turn for the agent, the sink ready. -/
def turnOf (a : Agent) : Turn := ⟨a, true, .ok⟩

/-- The schedule starts with a turn for the agent. -/
def scheduled (a : Agent) (s : State) : State := s.schedule a

theorem test_witness_DecodeOfEncodeIsTheInstruction :
    WellFormed FrameCtx.default (.frDrop4 0xFFFFFFFF#32) = true ∧ WellFormed FrameCtx.default (.frWaitPay 1#32) = true ∧
    WellFormed FrameCtx.default (.frWaitPay 65536#32) = true ∧ WellFormed FrameCtx.default (.frEmit 0#32) = true ∧
    WellFormed FrameCtx.default (.frEmit 65536#32) = true ∧ WellFormed FrameCtx.default (.wrRo 0x004#19 1#32) = true ∧
    WellFormed FrameCtx.default (.wrRo 0x04C#19 1#32) = true ∧ WellFormed FrameCtx.default (.wrRo 0x7FFFC#19 1#32) = true ∧
    WellFormed FrameCtx.default (.rdRsvd 0x02C#19) = true ∧ WellFormed FrameCtx.default (.rdRsvd 0x050#19) = true ∧
    WellFormed FrameCtx.default (.wrRsvd 0x3FFFC#19 1#32) = true ∧
    WellFormed FrameCtx.default (.busBad 0xFFFFF#20 0#32 0#4) = true ∧
    WellFormed FrameCtx.default (.busBad 0x00000#20 0#32 8#4) = true := by decide

theorem test_witness_EncodeOfDecodeRestoresTheBits :
    decodeBeat 0x2FF#10 = .ok (.inErr 0xFF#8) ∧
    (0xFFFFC#20).getLsbD 19 = true ∧ (0x00003#20).extractLsb' 0 2 ≠ 0#2 ∧ (1#4 : BitVec 4) ≠ 0#4 := by decide

theorem test_witness_StepRunsTheDecodedOperation :
    (scheduled .xf (transforming [1])).beginTurn.portWord (scheduled .xf (transforming [1])).nextTurn.agent = some .engine ∧
    decode (scheduled .xf (transforming [1])).beginTurn.frameCtx .engine = .ok .xfDone := by decide

/-- Every agent has something to do: a beat, an access, a full header, a payload. -/
def allBusy : State :=
  { transforming [1, 2] with buf := header 0, port := { Ports.quiet with inQueue := [0x044#10], busQueue := [⟨0x80000#20, 0x1D#32, 0#4⟩] } }

theorem test_witness_StepOfEachAgent :
    ((scheduled .ing allBusy).port.sched = turnOf .ing :: [] ∧ (scheduled .ing allBusy).port.inQueue = 0x044#10 :: [] ∧
      decodeBeat 0x044#10 = .ok (.inData 0x44#8)) ∧
    ((scheduled .host allBusy).port.sched = turnOf .host :: [] ∧
      (scheduled .host allBusy).port.busQueue = ⟨0x80000#20, 0x1D#32, 0#4⟩ :: []) ∧
    (scheduled .frm allBusy).port.sched = turnOf .frm :: [] ∧
    ((scheduled .xf allBusy).port.sched = turnOf .xf :: [] ∧ (scheduled .xf allBusy).xfBusy = true) ∧
    (scheduled .rst allBusy).port.sched = turnOf .rst :: [] := by decide

theorem test_witness_IdleTurnPasses :
    ((scheduled .ing State.reset).port.sched = turnOf .ing :: [] ∧ State.reset.port.inQueue = []) ∧
    ((scheduled .host State.reset).port.sched = turnOf .host :: [] ∧ State.reset.port.busQueue = []) ∧
    ((scheduled .xf State.reset).port.sched = turnOf .xf :: [] ∧ State.reset.xfBusy = false) := by decide

theorem test_witness_ReservedBeatKindIsRefused :
    (State.reset.present (.beat 0x300#10)).nextTurn.agent = .ing ∧
    (State.reset.present (.beat 0x300#10)).port.inQueue = 0x300#10 :: [] ∧
    (0x300#10).extractLsb' 8 2 = 0b11#2 ∧ (0x3FF#10).extractLsb' 8 2 = 0b11#2 := by decide

theorem test_witness_BusBadIsRefused :
    (State.reset.present (.access ⟨0x00003#20, 0#32, 0#4⟩)).nextTurn.agent = .host ∧
    (State.reset.present (.access ⟨0x00003#20, 0#32, 0#4⟩)).port.busQueue = ⟨0x00003#20, 0#32, 0#4⟩ :: [] ∧
    (0x00003#20).toNat % 4 ≠ 0 ∧
    (State.reset.present (.access ⟨0x80000#20, 0#32, 8#4⟩)).port.busQueue = ⟨0x80000#20, 0#32, 8#4⟩ :: [] ∧
    (8#4 : BitVec 4) ≠ 0#4 ∧ decodeAccess ⟨0x00003#20, 0#32, 0#4⟩ = .busBad 0x00003#20 0#32 0#4 := by decide

theorem test_witness_AlignedAccessAlwaysCompletes :
    (State.reset.present (.access ⟨0xFFFFC#20, 0#32, 0#4⟩)).nextTurn.agent = .host ∧
    (State.reset.present (.access ⟨0xFFFFC#20, 0#32, 0#4⟩)).port.busQueue = ⟨0xFFFFC#20, 0#32, 0#4⟩ :: [] ∧
    (0xFFFFC#20).toNat % 4 = 0 := by decide

/-- A build with MAX_PAYLOAD_HW = 0, so BUF_CAP = 8, and 7 bytes buffered. -/
def tiny : State := { holding [1, 2, 3, 4, 5, 6, 7] with params := { maxPayloadHw := 0 }, maxPayload := 0 }

theorem test_witness_InDataAppendsTheByte :
    tiny.ctrl.en = true ∧ tiny.runState = .running ∧ tiny.buf.length < 8 + tiny.params.maxPayloadHw.toNat ∧
    ¬ tiny.buf.length + 1 < 8 + tiny.params.maxPayloadHw.toNat := by decide

theorem test_witness_CloseDisconnectsAndDiscards :
    (tiny.ctrl.en = true ∧ tiny.runState = .running ∧ tiny.decision = .waitHdr) ∧
    ((holding (header 1)).ctrl.en = true ∧ (holding (header 1)).runState = .running ∧
      (holding (header 1)).decision = .waitPay 1#32) := by decide

theorem test_witness_InReadyFollowsTheKind :
    (0x0FF#10).extractLsb' 8 2 = 0b00#2 ∧ (0x100#10).extractLsb' 8 2 = 0b01#2 ∧ (0x2FF#10).extractLsb' 8 2 = 0b10#2 := by decide

/-- A source offering one DATA byte to a machine whose ingress is closed. -/
def offered (s : State) : State := { s with port := { s.port with inQueue := [0x044#10] } }

theorem test_witness_UnreadyBeatStaysOnThePort :
    (scheduled .ing (offered State.reset)).port.sched = turnOf .ing :: [] ∧
    (scheduled .ing (offered State.reset)).port.inQueue = 0x044#10 :: [] ∧ (0x044#10).extractLsb' 8 2 ≠ 0b11#2 ∧
    (scheduled .ing (offered State.reset)).inReady 0x044#10 = false ∧ State.reset.ctrl.en = false ∧
    ({ holding [] with runState := .disconnected, discCause := .eos } : State).runState = .disconnected := by decide

theorem test_witness_EnGatesIngressOnly :
    State.reset.ctrl.en = false ∧ (0xFFFFFFFA#32).getLsbD 0 = false ∧ (0xFFFFFFFA#32).getLsbD 2 = false ∧
    nextHas (exec (holding (header 0)).decision.toInstr (holding (header 0))) (fun t => t.cnt.framesOk == 1) = true ∧
    nextHas (exec .xfDone (transforming [])) (fun t => t.pub.seq == 1) = true := by decide

theorem test_witness_FrDrop1DropsOneByte :
    8 ≤ (holding (0 :: header 0)).buf.length ∧ u32le (holding (0 :: header 0)).buf 0 ≠ State.reset.params.magic := by decide

theorem test_witness_FrDrop4DropsTheMagic :
    (8 ≤ (header 17).length ∧ u32le (header 17) 0 = State.reset.params.magic ∧ (16#32).toNat < (u32le (header 17) 4).toNat) ∧
    (65536#32).toNat < (u32le [0x44, 0x52, 0x50, 0x53, 0xFF, 0xFF, 0xFF, 0xFF] 4).toNat := by decide

theorem test_witness_FrEmitHandsThePayloadOn :
    8 ≤ (header 0).length ∧ u32le (header 0) 0 = State.reset.params.magic ∧ (u32le (header 0) 4).toNat ≤ (0#32).toNat ∧
    8 + (u32le (header 0) 4).toNat ≤ (header 0).length ∧ State.reset.xfBusy = false ∧ State.reset.ctrl.capEn = false ∧
    (transforming []).xfBusy = true ∧
    ({ holding (header 0) with ctrl := ⟨true, true⟩ } : State).port.capReady = true := by decide

theorem test_witness_OperationsWithoutAStepChangeNothing :
    (holding []).decision ≠ .drop1 ∧ (holding []).decision ≠ .drop4 0#32 ∧ (holding (header 0)).decision ≠ .emit 1#32 ∧
    (transforming []).xfBusy = true ∧
    (let s : State := { holding (header 0) with ctrl := ⟨true, true⟩, port := { Ports.quiet with capReady := false } }
     s.ctrl.capEn = true ∧ s.port.capReady = false ∧ s.decision = .emit 0#32) ∧ State.reset.xfBusy = false := by decide

theorem test_witness_HeadPosTracksTheStream :
    ({ holding (header 17) with headPos := 2 } : State).InStream ([9, 9] ++ header 17) ∧
    (holding []).dataReady = true ∧ (0x4#32).getLsbD 2 = true ∧
    (holding (0 :: header 4)).decision = .drop1 ∧ (withCeiling 16 (holding (header 17))).decision = .drop4 17#32 ∧
    ((holding (header 0)).decision = .emit 0#32 ∧ (holding (header 0)).held = false) ∧ (holding []).frmEnabled = false := by
  unfold State.InStream; decide

theorem test_witness_FramerStepRemovesBytes :
    (holding (header 0)).frmEnabled = true ∧ (holding (header 1)).frmEnabled = false := by decide

theorem test_witness_FullBufferIsNotQuiescent :
    let s := { tiny with buf := header 0 }
    s.maxPayload.toNat ≤ s.params.maxPayloadHw.toNat ∧ s.buf.length = s.params.bufCap := by decide

theorem test_witness_QuiescentHeadHoldsNoFrame :
    ([0x5A#8] : List Byte).length ≤ (1#32).toNat ∧
    (withCeiling 1 (holding (header 1 ++ [0x5A, 0x44]))).buf = frameBytes State.reset.params.magic [0x5A] ++ [0x44] := by decide

theorem test_witness_CeilingIsReadAtEveryDecision :
    (holding (header 32)).decision = .waitPay 32#32 ∧ (31#32).toNat < (32#32).toNat ∧
    (31#32).toNat ≤ State.reset.params.maxPayloadHw.toNat ∧ (withCeiling 16 (holding (header 17))).decision = .drop4 17#32 := by decide

/-- Eight garbage bytes buffered while the engine is busy: the framer and the engine can both move. -/
def bothEnabled : State := { transforming [0, 0] with buf := [0, 0, 0, 0, 0, 0, 0, 0] }

/-- Framer first, or engine first: two settled ends of runs over no further bytes. -/
theorem test_witness_ScheduleDoesNotMatter : ∃ t₁ t₂, SettlesAt bothEnabled [] t₁ ∧ SettlesAt bothEnabled [] t₂ :=
  ⟨_, _,
    ⟨.head (.frm rfl rfl) (.head (.xf rfl rfl) .refl), rfl⟩,
    ⟨.head (.xf rfl rfl) (.head (.frm rfl rfl) .refl), rfl⟩⟩

theorem test_witness_ValidFramesAreAllDelivered :
    State.AtBoundary (withCeiling 2 (holding [])) ∧
    (2#32).toNat ≤ State.reset.params.maxPayloadHw.toNat ∧
    ∀ p ∈ ([[], [0x03, 0xFC]] : List (List Byte)), p.length ≤ (2#32).toNat := by
  unfold State.AtBoundary; decide

/-- The endless run from a state, staying where a step stops. -/
def runFrom (s : State) : Nat → State
  | 0 => s
  | n + 1 => match step (runFrom s n) with
    | .next t => t
    | .fault _ => runFrom s n
    | .refused _ => runFrom s n

/-- A run that starts with the engine busy and the framer held, with no input to come. -/
theorem test_witness_EveryRunIsFairAndSettles :
    ∃ run, IsRun run ∧ (run 0).xfBusy = true ∧ (run 0).held = true ∧ (run 0).port.inQueue = [] ∧
      (run 0).port.busQueue = [] := by
  let s : State := { transforming [0, 0] with buf := header 0 }
  have h : ∀ n, (runFrom s n).port.inQueue = [] ∧ (runFrom s n).port.busQueue = [] := by
    intro n
    induction n with
    | zero => exact ⟨rfl, rfl⟩
    | succ n ih =>
      obtain ⟨t, ht, h1, h2⟩ := step_of_no_input ih.1 ih.2
      simp only [runFrom, ht]; exact ⟨h1, h2⟩
  refine ⟨runFrom s, fun n => ?_, by decide, by decide, rfl, rfl⟩
  obtain ⟨t, ht, -, -⟩ := step_of_no_input (h n).1 (h n).2
  simp only [runFrom, ht]

theorem test_witness_GarbageIsDroppedExactly :
    State.AtBoundary (holding []) ∧ FreeOfMagic State.reset.params.magic [0x44, 0x44, 0x52, 0x50] ∧
    Borderless State.reset.params.magic ∧ ([0x03, 0xFC] : List Byte).length ≤ State.reset.maxPayload.toNat := by
  refine ⟨by unfold State.AtBoundary; decide, ?_, by unfold Borderless; decide, by decide⟩
  intro p hp
  obtain rfl : p = 0 := by simp at hp; omega
  decide

theorem test_witness_XfDonePublishesTheSpectrum :
    (transforming [0x05, 0xFB, 0x09]).xfBusy = true ∧ (transforming [0x05, 0xFB, 0x09]).xfIn = some [0x05, 0xFB, 0x09] := by decide

theorem test_witness_SamplesPairSignedBytes :
    (0 : Nat) < ([0x80, 0x7F, 0x09] : List Byte).length / 2 ∧ (⟨-128, 127⟩ : Sample) ∈ samples [0x80, 0x7F, 0x09] := by decide

/-- Two payloads with the same samples, an all-zero payload, and a payload with an exact bin value. -/
theorem test_witness_DbNumHasItsThreeProperties :
    ((transforming [3, 0xFC]).params = (transforming [3, 0xFC, 9]).params ∧ (transforming [3, 0xFC]).xfBusy = true ∧
      (transforming [3, 0xFC]).xfIn = some [3, 0xFC] ∧ samples [3, 0xFC] = samples [3, 0xFC, 9]) ∧
    ((transforming [0, 0, 0x5A]).params.Legal ∧ ∀ x ∈ samples [0, 0, 0x5A], x = ⟨0, 0⟩) ∧
    (([3, 0xFC] : List Byte).length ≤ (transforming [3, 0xFC]).params.maxPayloadHw.toNat ∧
      ∃ d, IsExactDb (transforming [3, 0xFC]).params.eps.value (samples [3, 0xFC]) 0 d) :=
  ⟨⟨rfl, rfl, rfl, by decide⟩, ⟨legal_default, by decide⟩, by decide, _, rfl⟩

theorem test_witness_OddByteDoesNotChangeTheSpectrum : ([3, 0xFC] : List Byte).length % 2 = 0 ∧ (transforming [3, 0xFC]).xfBusy = true := by decide

theorem test_witness_BinsLieInTheDecibelRange :
    (transforming [0x80, 0x80]).params.Legal ∧ (transforming [0x80, 0x80]).params.eps.value = 1 / 1000000 ∧
    (transforming [0x80, 0x80]).xfBusy = true ∧ (transforming [0x80, 0x80]).xfIn = some [0x80, 0x80] ∧
    ([0x80, 0x80] : List Byte).length ≤ (transforming [0x80, 0x80]).params.maxPayloadHw.toNat :=
  ⟨legal_default, eps_value_default, rfl, rfl, by decide⟩

theorem test_witness_RdBinReturnsHalfOfAViewBin :
    32767 < 32768 ∧ distinct.view.bins.length = distinct.view.nbins ∧
    distinct.view.bins[1]? = some 0x402BF57427E69208#64 ∧ distinct.view.nbins ≤ 2 := by decide

/-- For EveryReadReturnsTheRegisterMap, EveryWriteFollowsTheRegisterMap and ReadOnlyAndReservedSpace. -/
theorem test_witness_aligned_addresses :
    (0x7FFFC#19).toNat % 4 = 0 ∧ (0x00000#19).toNat % 4 = 0 ∧ readOnlyAddr 0x40000#19 = true ∧ readOnlyAddr 0x028#19 = true ∧
    reservedAddr 0x02C#19 = true ∧ reservedAddr 0x3FFFC#19 = true := by decide

theorem test_witness_WritesLeaveOtherWordsAlone :
    nextHas (exec (.wrEvents 1#32) distinct) (fun _ => true) = true ∧ nextHas (exec (.wrIrqEn 1#32) distinct) (fun _ => true) = true ∧
    nextHas (exec (.wrMaxPayload 1#32) distinct) (fun _ => true) = true ∧ nextHas (exec (.wrRo 4#19 1#32) distinct) (fun _ => true) = true ∧
    nextHas (exec (.wrRsvd 0x50#19 1#32) distinct) (fun _ => true) = true ∧ (0x000#19) ≠ 0x008#19 ∧ (0x010#19) ≠ 0x014#19 := by decide

/-- Each event bit can be cleared by the host and set by its operation. -/
theorem test_witness_EventsAreSticky :
    nextHas (exec (.wrEvents 0x10#32) { State.reset with events := 0x1F#5 }) (fun t => t.events == 0x0F#5) = true ∧
    nextHas (exec .xfDone (transforming [])) (fun t => t.events.getLsbD 0) = true ∧
    nextHas (exec (.inEos 0#8) (holding [])) (fun t => t.events.getLsbD 1) = true ∧
    nextHas (exec (.frEmit 0#32) { holding (header 0) with
      ctrl := ⟨true, true⟩, port := { Ports.quiet with capResp := .fail } }) (fun t => t.events.getLsbD 2) = true ∧
    nextHas (exec (.frDrop4 17#32) (withCeiling 16 (holding (header 17)))) (fun t => t.events.getLsbD 3) = true ∧
    nextHas (exec .frDrop1 (holding (0 :: header 0))) (fun t => t.events.getLsbD 4) = true := by decide

theorem test_witness_OneStepRaisesAtMostOneEvent :
    nextHas (step (scheduled .frm (holding (0 :: header 0)))) (fun t => t.events.getLsbD 4) = true ∧
    (scheduled .frm (holding (0 :: header 0))).events.getLsbD 4 = false := by decide

theorem test_witness_OnlyRestartOrResetReconnects :
    nextHas (exec (.inErr 0#8) (holding [])) (fun t => t.runState == .disconnected) = true ∧
    nextHas (exec (.wrCtrl 4#32) { State.reset with runState := .disconnected, discCause := .err }) (fun t => t.runState == .running) = true ∧
    nextHas (exec .reset { State.reset with runState := .disconnected, discCause := .err }) (fun t => t.runState == .running) = true ∧
    (4#32).getLsbD 2 = true := by decide

theorem test_witness_OnlyXfDoneWritesPubOnlySnapWritesView :
    nextHas (exec (.wrCtrl 8#32) { State.reset with pub := ⟨true, 5, 0, []⟩ }) (fun t => t.view == ⟨true, 5, 0, []⟩) = true ∧
    (8#32).getLsbD 3 = true ∧ (7#32).getLsbD 3 = false ∧ (transforming [1, 0]).xfIn = some [1, 0] := by decide

theorem test_witness_OnlyHostAndResetChangeTheCeiling :
    nextHas (exec (.wrCtrl 0x1F#32) (withCeiling 16 State.reset)) (fun t => t.maxPayload == 16) = true := by decide

theorem test_witness_QuiescenceIsStableWithIngressClosed :
    let s : State := { holding (header 4) with ctrl := ⟨false, false⟩ }
    s.quiescent = true ∧ s.ctrl.en = false ∧ nextHas (exec (.inData 0#8) s) (fun t => t.buf == s.buf) = true := by decide

theorem test_witness_EventsDecideNothing :
    nextHas (exec (.wrIrqEn 1#32) { State.reset with events := 1#5 }) (fun t => t.events == 1#5) = true ∧
    Instr.wrIrqEn 1#32 ≠ .rdEvents := by decide

theorem test_witness_IrqIsTheOrOfEnabledEvents :
    nextHas (exec (.wrCtrl 1#32) { State.reset with irqEn := 1#5, events := 1#5 }) (fun t => t.irq) = true ∧
    Instr.wrCtrl 1#32 ≠ .rdIrqEn := by decide

/-- A state that meets the invariant with the engine busy and bytes buffered, and a step from it. -/
theorem test_witness_EveryStepKeepsTheInvariant :
    State.Inv (scheduled .frm { transforming [1, 0] with buf := header 4 ++ [9] }) ∧
    nextHas (step (scheduled .frm { transforming [1, 0] with buf := header 4 ++ [9] })) (fun _ => true) = true := by
  refine ⟨?_, by decide⟩
  constructor
  · exact legal_default
  · decide
  · decide
  · decide
  · intro p hp; cases hp; decide
  · decide
  · decide
  · exact ⟨rfl, Nat.zero_le _, by simp [holding, transforming, scheduled, State.schedule, State.reset, State.resetWith, Spectrum.empty], fun _ => rfl⟩
  · exact ⟨rfl, Nat.zero_le _, by simp [holding, transforming, scheduled, State.schedule, State.reset, State.resetWith, Spectrum.empty], fun _ => rfl⟩
  · decide

end Sys2Proof.Tests
end

/-! PROOFS. The scope family: what a step runs, when a turn passes, which operations have no step, and what every operation keeps of the build parameters and the ceiling. -/

namespace Sys2Proof.Machine

/-! ### A step, by what its agent presents -/

/-- Bits that decode: the step is exec after the turn has begun and the port's handshake (R16). -/
theorem step_of_decode {s : State} {w : PortWord} {i : Instr}
    (hw : s.beginTurn.portWord s.nextTurn.agent = some w)
    (hi : decode s.beginTurn.frameCtx w = .ok i) :
    step s = exec i (s.beginTurn.handshake s.nextTurn.agent) := by
  simp only [step, hw, hi]

/-- No bits: the turn begins and nothing else happens (log 5). -/
theorem step_of_idle {s : State} (hw : s.beginTurn.portWord s.nextTurn.agent = none) :
    step s = .next s.beginTurn := by
  simp only [step, hw]

/-- What an agent presents does not depend on whose turn has begun. -/
@[simp] theorem beginTurn_portWord (s : State) (a : Agent) :
    s.beginTurn.portWord a = s.portWord a := by
  cases a <;> rfl

/-- The agents with nothing to do: no beat offered, no access issued, an idle engine. -/
theorem portWord_eq_none_iff (s : State) (a : Agent) :
    s.portWord a = none ↔
      a = .ing ∧ s.port.inQueue = [] ∨ a = .host ∧ s.port.busQueue = [] ∨
        a = .xf ∧ s.xfBusy = false := by
  cases a <;> simp [State.portWord]

/-- Settles O6: the two hypotheses pick the branch of the step that runs the decoded operation. -/
theorem stepRunsTheDecodedOperation : Obligations.StepRunsTheDecodedOperation := by
  unfold Obligations.StepRunsTheDecodedOperation
  exact fun _ _ _ hw hi => step_of_decode hw hi

/-- Settles O8: the agent presents nothing, so the step is the beginning of its scheduled turn. -/
theorem idleTurnPasses : Obligations.IdleTurnPasses := by
  unfold Obligations.IdleTurnPasses
  intro s ready resp rest a hsched hidle
  have hagent : s.nextTurn.agent = a := by rw [nextTurn_of_sched hsched]
  have hnone : s.beginTurn.portWord s.nextTurn.agent = none := by
    rw [hagent, beginTurn_portWord]
    exact (portWord_eq_none_iff s a).2 hidle
  rw [step_of_idle hnone, beginTurn_of_sched hsched]

/-! ### Operations without a step (R16, log 5) -/

/-- What holds an FR_EMIT: a busy engine, or a capture port in use that is not ready (R116). -/
theorem emitReady_eq_false_iff (s : State) :
    s.emitReady = false ↔ s.xfBusy = true ∨ s.ctrl.capEn = true ∧ s.port.capReady = false := by
  rw [← Bool.not_eq_true, emitReady_iff]
  simp [imp_iff_not_or]

/-- Settles O21: without its guard each operation takes the branch that answers the same state. -/
theorem operationsWithoutAStepChangeNothing : Obligations.OperationsWithoutAStepChangeNothing := by
  unfold Obligations.OperationsWithoutAStepChangeNothing
  intro s len
  refine ⟨fun hd => ?_, fun hd => ?_, fun hd => ?_, fun hheld => ?_, fun hidle => ?_⟩
  · rw [exec_frDrop1, if_neg hd]
  · rw [exec_frDrop4, if_neg hd]
  · rw [exec_frEmit, if_neg fun hg => hd hg.1]
  · have hready : s.emitReady = false := (emitReady_eq_false_iff s).2 hheld
    simp [exec_frEmit, hready]
  · simp [exec_xfDone, hidle]

/-! ### The build parameters and the ceiling, over all operations -/

/-- No operation changes the build parameters (R7). -/
theorem exec_params {i : Instr} {s t : State} (h : exec i s = .next t) : t.params = s.params := by
  rcases exec_cases h with rfl | ⟨_, -, -, rfl⟩ | ⟨_, -, -, rfl⟩ | ⟨_, -, -, rfl⟩ | ⟨-, -, rfl⟩ |
    ⟨_, -, -, rfl⟩ | ⟨_, -, -, -, rfl⟩ | ⟨-, -, rfl⟩ | ⟨-, _, rfl⟩ | ⟨_, -, rfl⟩ | ⟨_, -, rfl⟩ |
    ⟨_, -, rfl⟩ | ⟨_, -, rfl⟩ | ⟨-, rfl⟩
  all_goals simp

/-- An operation that is neither a MAX_PAYLOAD write nor reset leaves the ceiling (R38). -/
theorem exec_maxPayload {i : Instr} {s t : State} (h : exec i s = .next t)
    (hwrite : ∀ v, i ≠ .wrMaxPayload v) (hreset : i ≠ .reset) : t.maxPayload = s.maxPayload := by
  rcases exec_cases h with rfl | ⟨_, -, -, rfl⟩ | ⟨_, -, -, rfl⟩ | ⟨_, -, -, rfl⟩ | ⟨-, -, rfl⟩ |
    ⟨_, -, -, rfl⟩ | ⟨_, -, -, -, rfl⟩ | ⟨-, -, rfl⟩ | ⟨-, _, rfl⟩ | ⟨_, -, rfl⟩ | ⟨_, -, rfl⟩ |
    ⟨_, -, rfl⟩ | ⟨v, hi, -⟩ | ⟨hi, -⟩
  case inr.inr.inr.inr.inr.inr.inr.inr.inr.inr.inr.inr.inl => exact absurd hi (hwrite v)
  case inr.inr.inr.inr.inr.inr.inr.inr.inr.inr.inr.inr.inr => exact absurd hi hreset
  all_goals simp

/-- Settles O53: each of the shapes an operation's next state can have keeps the build parameters,
and all but the two that are named keep the ceiling. -/
theorem onlyHostAndResetChangeTheCeiling : Obligations.OnlyHostAndResetChangeTheCeiling := by
  unfold Obligations.OnlyHostAndResetChangeTheCeiling
  exact fun _ _ _ h => ⟨exec_params h, exec_maxPayload h⟩

end Sys2Proof.Machine

/-! PROOFS. The state family: HEAD_POS and the stream, the EVENTS bits and irq, RUN_STATE, the slots PUB and VIEW, each as a rule over all operations. -/

namespace Sys2Proof.Machine

variable {i : Instr} {s t : State}

/-! ### The shapes of a next state, as a case analysis with names -/

/-- `exec_cases` as an eliminator: to prove something of an operation and the state it answers, prove
it for each effect an operation can have. -/
theorem exec_next_cases {s : State} {motive : ∀ (i : Instr) (t : State), exec i s = .next t → Prop}
    (stay : ∀ i h, motive i s h)
    (inData : ∀ b h, s.dataReady = true → motive (.inData b) (s.appendByte b) h)
    (inEos : ∀ b h, s.closeReady = true → motive (.inEos b) (s.raise (.disc .eos)) h)
    (inErr : ∀ b h, s.closeReady = true → motive (.inErr b) (s.raise (.disc .err)) h)
    (frDrop1 : ∀ h, s.decision = .drop1 → motive .frDrop1 ((s.dropHead 1).raise .resync) h)
    (frDrop4 : ∀ len h, s.decision = .drop4 len →
      motive (.frDrop4 len) ((s.dropHead 4).raise .lenRej) h)
    (frEmit : ∀ len h, s.decision = .emit len → s.emitReady = true →
      motive (.frEmit len) (s.emitFrame len.toNat) h)
    (xfDone : ∀ h, s.xfBusy = true → motive .xfDone
      (((s.publish s.nextSpectrum).countOdd s.xfPayload.length).raise .newSpec).engineIdle h)
    (read : ∀ i v h, IsRead i → motive i (s.busReturn v) h)
    (wrCtrl : ∀ v h, motive (.wrCtrl v) (s.writeCtrl (ctrlFields v)) h)
    (wrEvents : ∀ v h, motive (.wrEvents v) (s.clearEvents (eventBits v)) h)
    (wrIrqEn : ∀ v h, motive (.wrIrqEn v) (s.setIrqEn (eventBits v)) h)
    (wrMaxPayload : ∀ v h, motive (.wrMaxPayload v) (s.setCeiling v) h)
    (reset : ∀ h, motive .reset (State.resetWith s.params s.port) h)
    {i : Instr} {t : State} (h : exec i s = .next t) : motive i t h := by
  rcases exec_cases h with rfl | ⟨b, rfl, hr, rfl⟩ | ⟨b, rfl, hr, rfl⟩ | ⟨b, rfl, hr, rfl⟩ |
    ⟨rfl, hd, rfl⟩ | ⟨len, rfl, hd, rfl⟩ | ⟨len, rfl, hd, hr, rfl⟩ | ⟨rfl, hb, rfl⟩ |
    ⟨hread, v, rfl⟩ | ⟨v, rfl, rfl⟩ | ⟨v, rfl, rfl⟩ | ⟨v, rfl, rfl⟩ | ⟨v, rfl, rfl⟩ | ⟨rfl, rfl⟩
  · exact stay _ _
  · exact inData b _ hr
  · exact inEos b _ hr
  · exact inErr b _ hr
  · exact frDrop1 _ hd
  · exact frDrop4 len _ hd
  · exact frEmit len _ hd hr
  · exact xfDone _ hb
  · exact read _ v _ hread
  · exact wrCtrl v _
  · exact wrEvents v _
  · exact wrIrqEn v _
  · exact wrMaxPayload v _
  · exact reset _

/-! ### HEAD_POS and the stream (R22) -/

/-- A byte appended to BUF is the next byte of the stream. -/
theorem State.InStream.append {s t : State} {stream : List Byte} (hs : s.InStream stream) {b : Byte}
    (hbuf : t.buf = s.buf ++ [b]) (hpos : t.headPos = s.headPos) : t.InStream (stream ++ [b]) := by
  obtain ⟨hle, heq⟩ := hs
  refine ⟨by simp [hpos]; omega, ?_⟩
  rw [hbuf, hpos, heq, List.drop_append_of_le_length hle]

/-- Bytes dropped from the head of BUF move HEAD_POS along the same stream. -/
theorem State.InStream.drop {s t : State} {stream : List Byte} (hs : s.InStream stream) {k : Nat}
    (hk : k ≤ s.buf.length) (hbuf : t.buf = s.buf.drop k) (hpos : t.headPos = s.headPos + k) :
    t.InStream stream := by
  obtain ⟨hle, heq⟩ := hs
  have hlen : s.buf.length = stream.length - s.headPos := by simp [heq]
  exact ⟨by omega, by rw [hbuf, hpos, heq, List.drop_drop]⟩

/-- An empty BUF at HEAD_POS 0 starts a new stream. -/
theorem inStream_nil (hbuf : t.buf = []) (hpos : t.headPos = 0) : t.InStream [] := by
  simp [State.InStream, hbuf, hpos]

/-- How many bytes the framer's decision takes off the head of BUF when its step is enabled (R117). -/
def FrDecision.consumes : FrDecision → Nat
  | .waitHdr => 0
  | .drop1 => 1
  | .drop4 _ => 4
  | .waitPay _ => 0
  | .emit len => 8 + len.toNat

/-- A decision takes no more bytes than BUF holds. -/
theorem consumes_decision_le (s : State) : s.decision.consumes ≤ s.buf.length := by
  cases h : s.decision with
  | waitHdr => exact Nat.zero_le _
  | drop1 => have := frDecide_drop1_iff.1 h; simp only [FrDecision.consumes]; omega
  | drop4 len => have := frDecide_drop4_iff.1 h; simp only [FrDecision.consumes]; omega
  | waitPay len => exact Nat.zero_le _
  | emit len => have := frDecide_emit_iff.1 h; simp only [FrDecision.consumes]; omega

/-- An enabled framer operation takes its bytes off BUF and moves HEAD_POS by as many. -/
theorem exec_decision_of_enabled (h : s.frmEnabled = true) :
    ∃ t, exec s.decision.toInstr s = .next t ∧ t.buf = s.buf.drop s.decision.consumes ∧
      t.headPos = s.headPos + s.decision.consumes := by
  rcases (frmEnabled_iff s).1 h with hd | ⟨len, hd⟩ | ⟨⟨len, hd⟩, hready⟩
  · exact ⟨_, exec_decision_drop1 hd, by simp [hd, FrDecision.consumes]⟩
  · exact ⟨_, exec_decision_drop4 hd, by simp [hd, FrDecision.consumes]⟩
  · exact ⟨_, exec_decision_emit hd hready, by simp [hd, FrDecision.consumes]⟩

/-- The framer's turn in a stream: the stream stays, HEAD_POS moves by what an enabled decision
takes and stays otherwise. -/
theorem exec_decision_inStream {stream : List Byte} (hs : s.InStream stream)
    (h : exec s.decision.toInstr s = .next t) : t.InStream stream ∧
      t.headPos = s.headPos + if s.frmEnabled then s.decision.consumes else 0 := by
  cases hen : s.frmEnabled with
  | true =>
    obtain ⟨u, hu, hbuf, hpos⟩ := exec_decision_of_enabled hen
    obtain rfl : u = t := by rw [h] at hu; cases hu; rfl
    exact ⟨hs.drop (consumes_decision_le s) hbuf hpos, hpos⟩
  | false =>
    obtain rfl : s = t := by rw [exec_decision_of_not_enabled hen] at h; cases h; rfl
    exact ⟨hs, rfl⟩

/-- Settles O22: the two moves along a stream, the two starts of a new one, and the disconnects,
which raise DISC and leave HEAD_POS. -/
theorem headPosTracksTheStream : Obligations.HeadPosTracksTheStream := by
  unfold Obligations.HeadPosTracksTheStream
  refine ⟨fun s t stream b hs hready h => ?_, fun s t stream hs h => ?_, fun s v hv => ?_,
    fun s => ⟨_, rfl, rfl, inStream_nil rfl rfl⟩, fun s t b h => ?_, fun _ _ _ => rfl⟩
  · rw [exec_inData, if_pos hready] at h
    cases h
    exact ⟨hs.append rfl rfl, rfl⟩
  · obtain ⟨ht, hpos⟩ := exec_decision_inStream hs h
    refine ⟨ht, fun hd => ?_, fun len hd => ?_, fun len hd hheld => ?_, fun hen => by simp [hpos, hen]⟩
    · have hen : s.frmEnabled = true := (frmEnabled_iff s).2 (.inl hd)
      simp [hpos, hen, hd, FrDecision.consumes]
    · have hen : s.frmEnabled = true := (frmEnabled_iff s).2 (.inr (.inl ⟨len, hd⟩))
      simp [hpos, hen, hd, FrDecision.consumes]
    · have hen : s.frmEnabled = true := by
        simp [State.frmEnabled, State.quiescent, hd, FrDecision.isWait, hheld]
      simp [hpos, hen, hd, FrDecision.consumes]
  · have hrestart : (ctrlFields v).restart = true := hv
    have hpos : (s.writeCtrl (ctrlFields v)).headPos = 0 := by simp [writeCtrl_headPos, hrestart]
    exact ⟨_, rfl, hpos, inStream_nil (by simp [writeCtrl_buf, hrestart]) hpos⟩
  · rw [exec_inEos, exec_inErr] at h
    rcases h with h | h <;> cases h <;> split <;> simp

/-! ### The EVENTS bits, over all operations (R35) -/

/-- The place of an event's bit in EVENTS (R35). -/
def Event.place : Event → Nat
  | .newSpec => 0
  | .disc _ => 1
  | .capErr => 2
  | .lenRej => 3
  | .resync => 4

/-- An event's word has its own bit alone. -/
theorem Event.getLsbD_bit (ev : Event) (e : Nat) : ev.bit.getLsbD e = true ↔ e = ev.place := by
  have hbit : ev.bit = BitVec.twoPow 5 ev.place := by cases ev <;> rfl
  have hlt : ev.place < 5 := by cases ev <;> simp [Event.place]
  simp [hbit, hlt, eq_comm]

/-- The operation that an event's row in R35 names as the one that sets its bit. -/
def State.RaisesIn (s : State) (i : Instr) : Event → Prop
  | .newSpec => i = .xfDone
  | .disc _ => ∃ b, i = .inEos b ∨ i = .inErr b
  | .capErr => ∃ len, i = .frEmit len ∧ s.ctrl.capEn = true ∧ s.port.capResp = .fail
  | .lenRej => ∃ len, i = .frDrop4 len
  | .resync => i = .frDrop1

/-- What an operation does to EVENTS: nothing, one event raised by its row's operation, a W1C of the
host, or reset. -/
theorem exec_events_cases (h : exec i s = .next t) :
    t.events = s.events ∨ (∃ ev, s.RaisesIn i ev ∧ t.events = s.events ||| ev.bit) ∨
      (∃ v, i = .wrEvents v ∧ t.events = s.events &&& ~~~ eventBits v) ∨
      (i = .reset ∧ t.events = 0#5) := by
  induction h using exec_next_cases with
  | inEos b => exact .inr (.inl ⟨.disc .eos, ⟨b, .inl rfl⟩, rfl⟩)
  | inErr b => exact .inr (.inl ⟨.disc .err, ⟨b, .inr rfl⟩, rfl⟩)
  | frDrop1 => exact .inr (.inl ⟨.resync, rfl, by simp⟩)
  | frDrop4 len => exact .inr (.inl ⟨.lenRej, ⟨len, rfl⟩, by simp⟩)
  | frEmit len =>
    by_cases hfail : s.ctrl.capEn = true ∧ s.port.capResp = .fail
    · exact .inr (.inl ⟨.capErr, ⟨len, rfl, hfail⟩, by rw [emitFrame_events, if_pos hfail]⟩)
    · exact .inl (by rw [emitFrame_events, if_neg hfail])
  | xfDone => exact .inr (.inl ⟨.newSpec, rfl, by simp⟩)
  | wrEvents v => exact .inr (.inr (.inl ⟨v, rfl, rfl⟩))
  | reset => exact .inr (.inr (.inr ⟨rfl, rfl⟩))
  | _ => exact .inl (by simp)

/-- The five event bits of a bus word are its bits 4:0. -/
theorem getLsbD_eventBits (v : Word) {e : Nat} (he : e < 5) :
    (eventBits v).getLsbD e = v.getLsbD e := by
  simp [eventBits, he]

/-- A bit goes only by a W1C that names it, or by reset. -/
theorem exec_event_cleared {e : Nat} (he : e < 5) (h : exec i s = .next t)
    (hs : s.events.getLsbD e = true) (ht : t.events.getLsbD e = false) :
    (∃ v, i = .wrEvents v ∧ v.getLsbD e = true) ∨ i = .reset := by
  rcases exec_events_cases h with hev | ⟨ev, -, hev⟩ | ⟨v, hi, hev⟩ | ⟨hi, -⟩
  · simp [hev, hs] at ht
  · simp [hev, hs] at ht
  · refine .inl ⟨v, hi, ?_⟩
    rw [← getLsbD_eventBits v he]
    simpa [hev, hs, he, -BitVec.getLsbD_eq_getElem] using ht
  · exact .inr hi

/-- A bit comes only by an event at its place, raised by the operation its row names. -/
theorem exec_event_set {e : Nat} (h : exec i s = .next t)
    (hs : s.events.getLsbD e = false) (ht : t.events.getLsbD e = true) :
    ∃ ev : Event, e = ev.place ∧ s.RaisesIn i ev := by
  rcases exec_events_cases h with hev | ⟨ev, hrow, hev⟩ | ⟨v, -, hev⟩ | ⟨-, hev⟩
  · simp [hev, hs] at ht
  · refine ⟨ev, ev.getLsbD_bit e |>.1 ?_, hrow⟩
    simpa [hev, hs] using ht
  · simp [hev, hs] at ht
  · simp [hev] at ht

/-- Settles O48: what clears and what sets a bit, from the four things an operation can do to
EVENTS. -/
theorem eventsAreSticky : Obligations.EventsAreSticky := by
  unfold Obligations.EventsAreSticky
  refine ⟨rfl, fun _ _ => rfl, fun s => ?_, fun i s t e h he =>
    ⟨exec_event_cleared he h, fun hs ht => ?_⟩⟩
  · exact (BitVec.toNat_append 0#27 s.events).trans (by simp)
  · obtain ⟨ev, rfl, hrow⟩ := exec_event_set h hs ht
    cases ev with
    | newSpec => exact .inl ⟨rfl, hrow⟩
    | disc cause => exact .inr (.inl ⟨rfl, hrow⟩)
    | capErr => exact .inr (.inr (.inl ⟨rfl, hrow⟩))
    | lenRej => exact .inr (.inr (.inr (.inl ⟨rfl, hrow⟩)))
    | resync => exact .inr (.inr (.inr (.inr ⟨rfl, hrow⟩)))

/-! ### irq (R43) and what IRQ_EN does not mask (R209) -/

/-- irq is the OR of the enabled event bits. -/
theorem irq_iff (s : State) :
    s.irq = true ↔ ∃ e, e < 5 ∧ s.events.getLsbD e = true ∧ s.irqEn.getLsbD e = true := by
  rw [State.irq, bne_iff_ne]
  constructor
  · intro hne
    by_contra hnone
    refine hne (BitVec.eq_of_getLsbD_eq fun e he => ?_)
    rw [BitVec.getLsbD_and, BitVec.getLsbD_zero, Bool.and_eq_false_imp]
    exact fun hev => Bool.eq_false_iff.2 fun hen => hnone ⟨e, he, hev, hen⟩
  · rintro ⟨e, -, hev, hen⟩ hzero
    have hbit := congrArg (BitVec.getLsbD · e) hzero
    simp only [BitVec.getLsbD_and, hev, hen, BitVec.getLsbD_zero] at hbit
    cases hbit

/-- With another IRQ_EN a CTRL write does the same. -/
theorem setIrqEn_writeCtrl (s : State) (m : BitVec 5) (w : CtrlWrite) :
    (s.setIrqEn m).writeCtrl w = (s.writeCtrl w).setIrqEn m := by
  simp only [writeCtrl_eq]; split <;> split <;> split <;> rfl

/-- With another IRQ_EN an emit does the same. -/
theorem setIrqEn_emitFrame (s : State) (m : BitVec 5) (n : Nat) :
    (s.setIrqEn m).emitFrame n = (s.emitFrame n).setIrqEn m := by
  have htee : ∀ p, (s.setIrqEn m).tee p = (s.tee p).setIrqEn m := fun p => by
    cases hc : s.ctrl.capEn <;> cases hr : s.port.capResp <;> simp [State.tee, hc, hr] <;> rfl
  simp only [State.emitFrame, setIrqEn_buf, htee]; rfl

/-- With another IRQ_EN counting an odd length does the same. -/
theorem setIrqEn_countOdd (s : State) (m : BitVec 5) (n : Nat) :
    (s.setIrqEn m).countOdd n = (s.countOdd n).setIrqEn m := by
  unfold State.countOdd; split <;> rfl

/-- A guarded operation whose guard and effect do not read IRQ_EN does the same with another. -/
theorem exec_setIrqEn_of_ite {m : BitVec 5} {c : Prop} [Decidable c] {u : State}
    (h : exec i s = .next t) (hs : exec i s = .next (if c then u else s))
    (hm : exec i (s.setIrqEn m) = .next (if c then u.setIrqEn m else s.setIrqEn m)) :
    ∃ m', exec i (s.setIrqEn m) = .next (t.setIrqEn m') := by
  rw [hs] at h
  cases h
  exact ⟨m, hm.trans (congrArg _ (apply_ite (State.setIrqEn · m) c u s).symm)⟩

/-- Every operation but RD_IRQ_EN does the same whatever IRQ_EN holds, IRQ_EN itself apart: no guard
and no effect reads it. -/
theorem exec_setIrqEn (m : BitVec 5) (h : exec i s = .next t) (hread : i ≠ .rdIrqEn) :
    ∃ m', exec i (s.setIrqEn m) = .next (t.setIrqEn m') := by
  cases i with
  | inData b => exact exec_setIrqEn_of_ite h (exec_inData b s) (exec_inData b _)
  | inEos b => exact exec_setIrqEn_of_ite h (exec_inEos b s) (exec_inEos b _)
  | inErr b => exact exec_setIrqEn_of_ite h (exec_inErr b s) (exec_inErr b _)
  | frDrop1 => exact exec_setIrqEn_of_ite h (exec_frDrop1 s) (exec_frDrop1 _)
  | frDrop4 len => exact exec_setIrqEn_of_ite h (exec_frDrop4 len s) (exec_frDrop4 len _)
  | frEmit len =>
    have hm := exec_frEmit len (s.setIrqEn m)
    rw [setIrqEn_emitFrame] at hm
    exact exec_setIrqEn_of_ite h (exec_frEmit len s) hm
  | xfDone =>
    have hpub : (s.setIrqEn m).publish (s.setIrqEn m).nextSpectrum =
        (s.publish s.nextSpectrum).setIrqEn m := rfl
    have hm := exec_xfDone (s.setIrqEn m)
    rw [hpub, setIrqEn_countOdd] at hm
    exact exec_setIrqEn_of_ite h (exec_xfDone s) hm
  | wrCtrl v =>
    cases h
    exact ⟨m, congrArg _ (setIrqEn_writeCtrl s m (ctrlFields v))⟩
  | wrIrqEn v => cases h; exact ⟨eventBits v, rfl⟩
  | reset => cases h; exact ⟨0#5, rfl⟩
  | rdIrqEn => exact absurd rfl hread
  | busBad sel v l => cases h
  | _ => cases h; exact ⟨m, rfl⟩

/-- Settles O50: irq is a function of EVENTS and IRQ_EN, of which each write sets one, and no
operation but RD_IRQ_EN reads IRQ_EN. -/
theorem irqIsTheOrOfEnabledEvents : Obligations.IrqIsTheOrOfEnabledEvents := by
  unfold Obligations.IrqIsTheOrOfEnabledEvents
  refine ⟨irq_iff, fun s v => ⟨_, rfl, ?_⟩, fun s v => ⟨_, rfl, ?_⟩, rfl,
    fun _ _ _ m h hread => exec_setIrqEn m h hread⟩
  · rw [irq_iff]
    refine exists_congr fun e => and_congr_right fun he => ?_
    rw [setIrqEn_events, setIrqEn_irqEn, getLsbD_eventBits v he]
  · rw [irq_iff]
    refine exists_congr fun e => and_congr_right fun he => ?_
    rw [clearEvents_events, clearEvents_irqEn, BitVec.getLsbD_and, BitVec.getLsbD_not,
      getLsbD_eventBits v he]
    simp [he, and_assoc]

/-! ### RUN_STATE (R23) -/

/-- Only IN_EOS and IN_ERR disconnect. -/
theorem exec_disconnects (h : exec i s = .next t) (hs : s.runState = .running)
    (ht : t.runState = .disconnected) : ∃ b, i = .inEos b ∨ i = .inErr b := by
  induction h using exec_next_cases with
  | inEos b => exact ⟨b, .inl rfl⟩
  | inErr b => exact ⟨b, .inr rfl⟩
  | wrCtrl v => simp [writeCtrl_runState, hs] at ht
  | _ => simp [hs] at ht

/-- Only a CTRL write with RESTART and reset reconnect. -/
theorem exec_reconnects (h : exec i s = .next t) (hs : s.runState = .disconnected)
    (ht : t.runState = .running) : (∃ v, i = .wrCtrl v ∧ v.getLsbD 2 = true) ∨ i = .reset := by
  induction h using exec_next_cases with
  | wrCtrl v =>
    refine .inl ⟨v, rfl, ?_⟩
    by_contra hno
    have hrestart : (ctrlFields v).restart = false := Bool.eq_false_iff.2 hno
    simp [writeCtrl_runState, hrestart, hs] at ht
  | reset => exact .inr rfl
  | _ => simp [hs] at ht

/-- STATUS.DISC, bit 0 of STATUS (R34). -/
theorem getLsbD_statusWord_zero (s : State) :
    s.statusWord.getLsbD 0 = true ↔ s.runState = .disconnected := by
  have hbit : s.statusWord.getLsbD 0 = (s.runState == .disconnected) :=
    (BitVec.getLsbD_append ..).trans (by simp)
  rw [hbit, beq_iff_eq]

/-- Settles O51: from the two rules over all operations, RESTART's effect and STATUS.DISC. -/
theorem onlyRestartOrResetReconnects : Obligations.OnlyRestartOrResetReconnects := by
  unfold Obligations.OnlyRestartOrResetReconnects
  refine ⟨fun _ _ _ h => ⟨exec_disconnects h, exec_reconnects h⟩, fun s v hv => ⟨_, rfl, ?_⟩, rfl,
    getLsbD_statusWord_zero⟩
  have hrestart : (ctrlFields v).restart = true := hv
  simp [writeCtrl_runState, hrestart]

/-! ### The slots PUB and VIEW (R27, R28) -/

/-- Reset apart, only XF_DONE writes PUB. -/
theorem exec_pub (h : exec i s = .next t) (hreset : i ≠ .reset) (hxf : i ≠ .xfDone) :
    t.pub = s.pub := by
  induction h using exec_next_cases with
  | xfDone => exact absurd rfl hxf
  | reset => exact absurd rfl hreset
  | _ => simp

/-- Reset apart, only a CTRL write with SNAP writes VIEW. -/
theorem exec_view (h : exec i s = .next t) (hreset : i ≠ .reset)
    (hsnap : ∀ v, i = .wrCtrl v → v.getLsbD 3 = false) : t.view = s.view := by
  induction h using exec_next_cases with
  | wrCtrl v =>
    have hno : (ctrlFields v).snap = false := hsnap v rfl
    simp [writeCtrl_view, hno]
  | reset => exact absurd rfl hreset
  | _ => simp

/-- SNAP gives VIEW the whole record of PUB. -/
theorem exec_snap_view {v : Word} (h : exec (.wrCtrl v) s = .next t) (hsnap : v.getLsbD 3 = true) :
    t.view = s.pub := by
  have hyes : (ctrlFields v).snap = true := hsnap
  cases h
  simp [writeCtrl_view, hyes]

/-- XF_DONE of a busy engine gives PUB the whole record of its payload (R135). -/
theorem exec_xfDone_pub {payload : List Byte} (hbusy : s.xfBusy = true)
    (hin : s.xfIn = some payload) (h : exec .xfDone s = .next t) :
    t.pub = ⟨true, s.pub.seq + 1#32, payload.length / 2, spectrumBins s.params payload⟩ := by
  rw [exec_xfDone, if_pos hbusy] at h
  cases h
  simp [nextSpectrum_of_payload s hin]

/-- The bin window shows VIEW alone (R165). -/
theorem memRead_window (s : State) {addr : BitVec 19} (h : 0x40000 ≤ addr.toNat) :
    s.memRead addr =
      s.viewBin ((addr.toNat - 0x40000) / 8) (decide ((addr.toNat - 0x40000) % 8 = 4)) := by
  rw [State.memRead, if_pos h]

/-- Settles O52: the writers of the two slots over all operations, the records they write, the reset
values, and the window, which reads VIEW. -/
theorem onlyXfDoneWritesPubOnlySnapWritesView : Obligations.OnlyXfDoneWritesPubOnlySnapWritesView := by
  unfold Obligations.OnlyXfDoneWritesPubOnlySnapWritesView
  refine ⟨fun i s t h hreset => ⟨exec_pub h hreset, exec_view h hreset, ?_⟩,
    fun _ _ _ hbusy hin h => exec_xfDone_pub hbusy hin h, rfl, rfl, fun s r addr ha => ?_⟩
  · rintro v rfl hsnap
    exact exec_snap_view h hsnap
  · rw [memRead_window _ ha, memRead_window _ ha]
    rfl

end Sys2Proof.Machine

/-! PROOFS. The encoding family: the ingress beats that decode to no operation, and the step that meets one. -/

namespace Sys2Proof

/-- The beats that name no operation are those of kind 11 (R79). -/
theorem decodeBeat_eq_error_iff (b : BitVec 10) (e : DecodeError) :
    decodeBeat b = .error e ↔ b.extractLsb' 8 2 = 0b11#2 ∧ e = .reservedBeatKind b := by
  unfold decodeBeat
  generalize b.extractLsb' 8 2 = kind
  have hkind : kind = 0b00#2 ∨ kind = 0b01#2 ∨ kind = 0b10#2 ∨ kind = 0b11#2 := by
    revert kind
    decide
  rcases hkind with rfl | rfl | rfl | rfl
  case inr.inr.inr => simp [eq_comm]
  all_goals simp

namespace Machine

/-- Bits that do not decode: the step is refused under the name of the error, whatever in_ready is
(R79). -/
theorem step_of_decode_error {s : State} {w : PortWord} {e : DecodeError}
    (hw : s.beginTurn.portWord s.nextTurn.agent = some w)
    (he : decode s.beginTurn.frameCtx w = .error e) :
    step s = .refused (refusalOf e) := by
  simp only [step, hw, he]

/-- The ingress source presents the beat at the head of its queue. -/
theorem portWord_ing_of_cons {s : State} {b : BitVec 10} {q : List (BitVec 10)}
    (h : s.port.inQueue = b :: q) : s.portWord .ing = some (.beat b) := by
  simp [State.portWord, h]

/-- Settles O9: the beat the source presents decodes to an error, which the step refuses. -/
theorem reservedBeatKindIsRefused : Obligations.ReservedBeatKindIsRefused := by
  unfold Obligations.ReservedBeatKindIsRefused
  intro s b q hagent hqueue hkind
  have hword : s.beginTurn.portWord s.nextTurn.agent = some (.beat b) := by
    rw [hagent, beginTurn_portWord]
    exact portWord_ing_of_cons hqueue
  have herror : decode s.beginTurn.frameCtx (.beat b) = .error (.reservedBeatKind b) :=
    (decodeBeat_eq_error_iff b _).2 ⟨hkind, rfl⟩
  exact step_of_decode_error hword herror

end Machine

end Sys2Proof

/-! PROOFS. The ingress family: the beats and their readiness, what each agent's step runs, what CTRL.EN gates, and the interleavings of the data agents, which all settle in one state. -/

namespace Sys2Proof

/-! ### The beats of the ingress port (R78) -/

section
variable (kind : BitVec 2) (b : Byte)

theorem extractLsb'_kind : (kind ++ b).extractLsb' 8 2 = kind := BitVec.extractLsb'_append_eq_left

theorem extractLsb'_data : (kind ++ b).extractLsb' 0 8 = b := BitVec.extractLsb'_append_eq_right

end

theorem decodeBeat_data (b : Byte) : decodeBeat (0b00#2 ++ b) = .ok (.inData b) := by
  rw [decodeBeat, extractLsb'_kind, extractLsb'_data]; rfl

theorem decodeBeat_eos (b : Byte) : decodeBeat (0b01#2 ++ b) = .ok (.inEos b) := by
  rw [decodeBeat, extractLsb'_kind, extractLsb'_data]; rfl

theorem decodeBeat_err (b : Byte) : decodeBeat (0b10#2 ++ b) = .ok (.inErr b) := by
  rw [decodeBeat, extractLsb'_kind, extractLsb'_data]; rfl

/-- What a beat decodes to, by its kind. -/
theorem decodeBeat_ok_cases {b : BitVec 10} {i : Instr} (h : decodeBeat b = .ok i) :
    (b.extractLsb' 8 2 = 0b00#2 ∧ i = .inData (b.extractLsb' 0 8)) ∨
    (b.extractLsb' 8 2 = 0b01#2 ∧ i = .inEos (b.extractLsb' 0 8)) ∨
    (b.extractLsb' 8 2 = 0b10#2 ∧ i = .inErr (b.extractLsb' 0 8)) := by
  have hkinds : ∀ kind : BitVec 2, kind = 0b00#2 ∨ kind = 0b01#2 ∨ kind = 0b10#2 ∨ kind = 0b11#2 := by
    decide
  unfold decodeBeat at h
  generalize b.extractLsb' 8 2 = kind at h ⊢
  rcases hkinds kind with rfl | rfl | rfl | rfl <;> cases h <;> simp

/-- Every beat but one of kind 11 names an operation. -/
theorem decodeBeat_ok {b : BitVec 10} (h : b.extractLsb' 8 2 ≠ 0b11#2) :
    ∃ i, decodeBeat b = .ok i := by
  cases hd : decodeBeat b with
  | ok i => exact ⟨i, rfl⟩
  | error e => exact absurd ((decodeBeat_eq_error_iff b e).1 hd).1 h

namespace Machine

variable {s t : State}

/-! ### in_ready (R103) -/

theorem inReady_of_data {b : BitVec 10} (h : b.extractLsb' 8 2 = 0b00#2) :
    s.inReady b = s.dataReady := by
  simp [State.inReady, h]

theorem inReady_of_close {b : BitVec 10} (h : b.extractLsb' 8 2 = 0b01#2 ∨ b.extractLsb' 8 2 = 0b10#2) :
    s.inReady b = s.closeReady := by
  rcases h with h | h <;> simp [State.inReady, h]

/-- A closed port takes no beat of any kind: each kind asks EN and RUNNING. -/
theorem inReady_of_closed (b : BitVec 10) (h : s.ingressOpen = false) : s.inReady b = false := by
  have hdata : s.dataReady = false := by simp [State.dataReady, h]
  have hclose : s.closeReady = false := by simp [State.closeReady, h]
  unfold State.inReady
  split
  exacts [hdata, hclose, hclose, rfl]

theorem ingressOpen_eq_false_iff (s : State) :
    s.ingressOpen = false ↔ s.ctrl.en = false ∨ s.runState = .disconnected := by
  cases hr : s.runState <;> simp [State.ingressOpen, hr]

/-- The operation of a beat that is not ready has no step: its guard is in_ready. -/
theorem exec_of_not_inReady {b : BitVec 10} {i : Instr} (hi : decodeBeat b = .ok i)
    (h : s.inReady b = false) : exec i s = .next s := by
  rcases decodeBeat_ok_cases hi with ⟨hkind, rfl⟩ | ⟨hkind, rfl⟩ | ⟨hkind, rfl⟩
  · rw [inReady_of_data hkind] at h
    simp [exec_inData, h]
  · rw [inReady_of_close (.inl hkind)] at h
    simp [exec_inEos, h]
  · rw [inReady_of_close (.inr hkind)] at h
    simp [exec_inErr, h]

/-- Settles O14: each kind's readiness is the guard of its operation. -/
theorem inReadyFollowsTheKind : Obligations.InReadyFollowsTheKind := by
  unfold Obligations.InReadyFollowsTheKind
  refine fun s b => ⟨fun hkind => ?_, fun hkind => ?_⟩
  · rw [inReady_of_data hkind, dataReady_iff]
  · rw [inReady_of_close hkind, closeReady_iff, quiescent_iff]

/-! ### The ingress operations (R100 to R102) -/

theorem exec_inData_of_ready {b : Byte} (h : s.dataReady = true) :
    exec (.inData b) s = .next (s.appendByte b) := by
  rw [exec_inData, if_pos h]

/-- Settles O12: the beat decodes to IN_DATA, whose guard the three premises are. -/
theorem inDataAppendsTheByte : Obligations.InDataAppendsTheByte := by
  unfold Obligations.InDataAppendsTheByte
  refine fun s b => ⟨decodeBeat_data b, fun hen hrun hroom => ?_⟩
  exact exec_inData_of_ready ((dataReady_iff s).2 ⟨hen, hrun, hroom⟩)

/-- Settles O13: the beats decode to the two closes, which share their guard and raise DISC with
their cause. -/
theorem closeDisconnectsAndDiscards : Obligations.CloseDisconnectsAndDiscards := by
  unfold Obligations.CloseDisconnectsAndDiscards
  refine fun s b => ⟨decodeBeat_eos b, decodeBeat_err b, fun hen hrun hquiet => ?_⟩
  have hready : s.closeReady = true := (closeReady_iff s).2 ⟨hen, hrun, (quiescent_iff s).2 hquiet⟩
  rw [exec_inEos, exec_inErr, if_pos hready, if_pos hready]
  exact ⟨rfl, rfl⟩

/-! ### The step of each agent -/

/-- The header window holds the magic candidate and the length candidate (R77). -/
theorem headerWindow_fields (buf : List Byte) :
    (headerWindow buf).extractLsb' 0 32 = u32le buf 0 ∧
      (headerWindow buf).extractLsb' 32 32 = u32le buf 4 :=
  ⟨BitVec.extractLsb'_append_eq_right, BitVec.extractLsb'_append_eq_left⟩

/-- What the framer presents decodes to the operation of its decision (R83, R110). -/
theorem decodeWindow_headerWindow (s : State) :
    decodeWindow s.frameCtx s.buf.length (headerWindow s.buf) = s.decision.toInstr := by
  obtain ⟨hmagic, hlen⟩ := headerWindow_fields s.buf
  simp only [decodeWindow, hmagic, hlen, State.decision, frDecide, State.frameCtx]
  split_ifs <;> rfl

/-- A scheduled turn whose agent presents bits runs the operation they name, after the turn has begun
and the port's handshake. -/
theorem step_of_sched {a : Agent} {ready : Bool} {resp : CapResp} {rest : List Turn} {w : PortWord}
    {i : Instr} (hsched : s.port.sched = ⟨a, ready, resp⟩ :: rest) (hw : s.portWord a = some w)
    (hi : decode s.frameCtx w = .ok i) : step s = exec i (s.beginTurn.handshake a) := by
  have hagent : s.nextTurn.agent = a := by rw [nextTurn_of_sched hsched]
  have hword : s.beginTurn.portWord s.nextTurn.agent = some w := by
    rw [hagent, beginTurn_portWord, hw]
  rw [step_of_decode hword hi, hagent]

/-- The handshake of the ingress port takes the beat exactly when it is ready. -/
theorem handshake_ing_of_cons {b : BitVec 10} {q : List (BitVec 10)} (h : s.port.inQueue = b :: q) :
    s.handshake .ing =
      { s with port := { s.port with inQueue := if s.inReady b then q else b :: q } } := by
  simp only [State.handshake, h]
  cases s.inReady b
  · simp [← h]
  · simp [State.takeBeat, h]

/-- The ingress agent's turn: the beat's operation, the beat gone exactly when it was ready. -/
theorem step_ing {ready : Bool} {resp : CapResp} {rest : List Turn} {b : BitVec 10}
    {q : List (BitVec 10)} {i : Instr} (hsched : s.port.sched = ⟨.ing, ready, resp⟩ :: rest)
    (hq : s.port.inQueue = b :: q) (hi : decodeBeat b = .ok i) :
    step s = exec i { s with port := { s.port with
      sched := rest, capReady := ready, capResp := resp,
      inQueue := if s.inReady b then q else b :: q } } := by
  have hqueue : s.beginTurn.port.inQueue = b :: q := hq
  rw [step_of_sched hsched (portWord_ing_of_cons hq) hi, handshake_ing_of_cons hqueue,
    beginTurn_of_sched hsched]
  rfl

/-- Settles O7: each agent's turn is exec of what its port presents, after its port's handshake. -/
theorem stepOfEachAgent : Obligations.StepOfEachAgent := by
  unfold Obligations.StepOfEachAgent
  refine fun s ready resp rest => ⟨fun b q i hsched hq hi => step_ing hsched hq hi,
    fun a q hsched hq => ?_, fun hsched => ?_, fun hsched hbusy => ?_, fun hsched => ?_⟩
  · have hword : s.portWord .host = some (.access a) := by simp [State.portWord, hq]
    rw [step_of_sched hsched hword rfl, beginTurn_of_sched hsched]
    simp [State.handshake, State.takeAccess, hq]
  · have hword : s.portWord .frm = some (.window s.buf.length (headerWindow s.buf)) := rfl
    rw [step_of_sched hsched hword rfl, decodeWindow_headerWindow, beginTurn_of_sched hsched]
    rfl
  · have hword : s.portWord .xf = some .engine := by simp [State.portWord, hbusy]
    rw [step_of_sched hsched hword rfl, beginTurn_of_sched hsched]
    rfl
  · rw [step_of_sched hsched rfl rfl, beginTurn_of_sched hsched]
    rfl

/-- Settles O15: the beat's operation has no step and the handshake leaves the beat; a closed port
has no ready beat. -/
theorem unreadyBeatStaysOnThePort : Obligations.UnreadyBeatStaysOnThePort := by
  unfold Obligations.UnreadyBeatStaysOnThePort
  refine fun s ready resp rest b q hsched hq hkind => ⟨fun hready => ?_, fun hclosed =>
    inReady_of_closed b ((ingressOpen_eq_false_iff s).2 hclosed)⟩
  obtain ⟨i, hi⟩ := decodeBeat_ok hkind
  rw [step_ing hsched hq hi, if_neg (by simp [hready]), ← hq]
  exact exec_of_not_inReady hi hready

/-! ### The framer's and the engine's moves, field by field (R113 to R116, R135) -/

/-- An enabled framer operation drops a byte, drops a magic, or emits a frame. -/
theorem exec_decision_cases (hen : s.frmEnabled = true) (h : exec s.decision.toInstr s = .next t) :
    (s.decision = .drop1 ∧ t = (s.dropHead 1).raise .resync) ∨
    (∃ len, s.decision = .drop4 len ∧ t = (s.dropHead 4).raise .lenRej) ∨
    (∃ len, s.decision = .emit len ∧ s.emitReady = true ∧ t = s.emitFrame len.toNat) := by
  rcases (frmEnabled_iff s).1 hen with hd | ⟨len, hd⟩ | ⟨⟨len, hd⟩, hready⟩
  · rw [exec_decision_drop1 hd] at h; cases h
    exact .inl ⟨hd, rfl⟩
  · rw [exec_decision_drop4 hd] at h; cases h
    exact .inr (.inl ⟨len, hd, rfl⟩)
  · rw [exec_decision_emit hd hready] at h; cases h
    exact .inr (.inr ⟨len, hd, hready, rfl⟩)

/-- The state after the transform of a busy engine, as one update. -/
def State.transformed (s : State) : State := { s with
  pub := s.nextSpectrum
  xfBusy := false
  xfIn := none
  events := s.events ||| Event.newSpec.bit
  cnt := { s.cnt with
    spectra := s.cnt.spectra + 1#32
    oddTrunc := if s.xfPayload.length % 2 = 1 then s.cnt.oddTrunc + 1#32 else s.cnt.oddTrunc } }

theorem exec_xfDone_of_busy (h : s.xfBusy = true) : exec .xfDone s = .next s.transformed := by
  rw [exec_xfDone, if_pos h, State.countOdd, State.transformed]
  split <;> rfl

/-! ### EN gates the ingress port only (R104) -/

section
variable (s : State) (en : Bool)

theorem tee_setCtrl (p : List Byte) :
    (s.setCtrl en s.ctrl.capEn).tee p = (s.tee p).setCtrl en s.ctrl.capEn := by
  cases hc : s.ctrl.capEn <;> cases hr : s.port.capResp <;> simp [State.tee, hc, hr] <;> rfl

theorem emitFrame_setCtrl (n : Nat) :
    (s.setCtrl en s.ctrl.capEn).emitFrame n = (s.emitFrame n).setCtrl en (s.emitFrame n).ctrl.capEn := by
  rw [emitFrame_ctrl]
  simp only [State.emitFrame, setCtrl_buf, tee_setCtrl]
  rfl

end

/-- The framer's turn with another EN: the same operation, the same effect. -/
theorem exec_decision_setCtrl (en : Bool) (h : exec s.decision.toInstr s = .next t) :
    exec s.decision.toInstr (s.setCtrl en s.ctrl.capEn) = .next (t.setCtrl en t.ctrl.capEn) := by
  cases hen : s.frmEnabled with
  | false =>
    obtain rfl : s = t := by rw [exec_decision_of_not_enabled hen] at h; cases h; rfl
    exact exec_decision_of_not_enabled (s := s.setCtrl en s.ctrl.capEn) hen
  | true =>
    rcases exec_decision_cases hen h with ⟨hd, rfl⟩ | ⟨len, hd, rfl⟩ | ⟨len, hd, hready, rfl⟩
    · exact exec_decision_drop1 (s := s.setCtrl en s.ctrl.capEn) hd
    · exact exec_decision_drop4 (s := s.setCtrl en s.ctrl.capEn) hd
    · rw [← emitFrame_setCtrl]
      exact exec_decision_emit (s := s.setCtrl en s.ctrl.capEn) hd hready

/-- The engine's turn with another EN. -/
theorem exec_xfDone_setCtrl (en : Bool) (h : exec .xfDone s = .next t) :
    exec .xfDone (s.setCtrl en s.ctrl.capEn) = .next (t.setCtrl en t.ctrl.capEn) := by
  cases hb : s.xfBusy with
  | false =>
    obtain rfl : s = t := by simpa [exec_xfDone, hb] using h
    simp [exec_xfDone, hb]
  | true =>
    obtain rfl : s.transformed = t := by rw [exec_xfDone_of_busy hb] at h; cases h; rfl
    exact exec_xfDone_of_busy (s := s.setCtrl en s.ctrl.capEn) hb

/-- Settles O16: EN closes the port, and neither the framer's nor the engine's guards and effects read
it; a CTRL write discards BUF by RESTART only. -/
theorem enGatesIngressOnly : Obligations.EnGatesIngressOnly := by
  unfold Obligations.EnGatesIngressOnly
  refine ⟨fun s b hen => inReady_of_closed b ((ingressOpen_eq_false_iff s).2 (.inl hen)),
    fun _ _ => rfl, fun _ _ en h => exec_decision_setCtrl en h,
    fun _ _ en h => exec_xfDone_setCtrl en h, fun s v _ hrestart => ⟨_, rfl, ?_⟩⟩
  have hno : (ctrlFields v).restart = false := hrestart
  simp [writeCtrl_buf, hno]

/-! ### The moves of the data agents commute (R119, R106) -/

/-- A byte appended behind the bytes the framer takes. -/
theorem dropHead_appendByte {k : Nat} (h : k ≤ s.buf.length) (b : Byte) :
    (s.appendByte b).dropHead k = (s.dropHead k).appendByte b := by
  simp [State.dropHead, State.appendByte, List.drop_append_of_le_length h]

theorem payloadOf_append {buf : List Byte} {n : Nat} (h : 8 + n ≤ buf.length) (more : List Byte) :
    payloadOf (buf ++ more) n = payloadOf buf n := by
  have hhead : Config.hdrLen ≤ buf.length := by simp only [Config.hdrLen]; omega
  have hlen : n ≤ (buf.drop Config.hdrLen).length := by simp [Config.hdrLen]; omega
  rw [payloadOf, List.drop_append_of_le_length hhead, List.take_append_of_le_length hlen, payloadOf]

theorem tee_appendByte (s : State) (b : Byte) (p : List Byte) :
    (s.appendByte b).tee p = (s.tee p).appendByte b := by
  cases hc : s.ctrl.capEn <;> cases hr : s.port.capResp <;> simp [State.tee, hc, hr] <;> rfl

theorem emitFrame_appendByte {n : Nat} (h : 8 + n ≤ s.buf.length) (b : Byte) :
    (s.appendByte b).emitFrame n = (s.emitFrame n).appendByte b := by
  have hlen : 8 + n ≤ ((s.tee (payloadOf s.buf n)).handPayload (payloadOf s.buf n)).buf.length := by
    simpa using h
  have hdrop := congrArg State.countFrame (dropHead_appendByte hlen b)
  simp only [State.emitFrame, appendByte_buf, payloadOf_append h, tee_appendByte]
  exact hdrop

/-- An enabled framer decides the same when a byte comes behind. -/
theorem decision_appendByte (hen : s.frmEnabled = true) (b : Byte) :
    (s.appendByte b).decision = s.decision := by
  have hwait : s.decision.isWait = false := by
    simp only [State.frmEnabled, State.quiescent, Bool.and_eq_true, Bool.not_eq_true'] at hen
    exact hen.1
  exact frDecide_append [b] hwait

theorem frmEnabled_appendByte (hen : s.frmEnabled = true) (b : Byte) :
    (s.appendByte b).frmEnabled = true := by
  rw [frmEnabled_iff, decision_appendByte hen]
  exact (frmEnabled_iff s).1 hen

/-- An enabled framer operation and the arrival of a byte, in either order. -/
theorem exec_decision_appendByte (hen : s.frmEnabled = true)
    (h : exec s.decision.toInstr s = .next t) (b : Byte) :
    exec (s.appendByte b).decision.toInstr (s.appendByte b) = .next (t.appendByte b) := by
  have hle := consumes_decision_le s
  have hdec := decision_appendByte hen b
  rcases exec_decision_cases hen h with ⟨hd, rfl⟩ | ⟨len, hd, rfl⟩ | ⟨len, hd, hready, rfl⟩
  all_goals rw [hd, FrDecision.consumes] at hle
  · rw [exec_decision_drop1 (hdec.trans hd), dropHead_appendByte hle]
    rfl
  · rw [exec_decision_drop4 (hdec.trans hd), dropHead_appendByte hle]
    rfl
  · rw [exec_decision_emit (hdec.trans hd) hready, emitFrame_appendByte hle]

/-- The framer's step keeps the port ready: it only makes room. -/
theorem dataReady_of_exec_decision (hen : s.frmEnabled = true)
    (h : exec s.decision.toInstr s = .next t) (hready : s.dataReady = true) : t.dataReady = true := by
  rw [dataReady_iff] at hready ⊢
  obtain ⟨hctrl, hrun, hroom⟩ := hready
  rcases exec_decision_cases hen h with ⟨-, rfl⟩ | ⟨len, -, rfl⟩ | ⟨len, -, -, rfl⟩
  all_goals exact ⟨by simpa using hctrl, by simpa using hrun, by simp; omega⟩

/-- The transform and an event of the framer, in either order: their counters differ, and EVENTS
collects both bits. -/
theorem transformed_raise (s : State) {e : Event} (he : e = .resync ∨ e = .lenRej) :
    (s.raise e).transformed = s.transformed.raise e := by
  have hor : s.events ||| e.bit ||| Event.newSpec.bit = s.events ||| Event.newSpec.bit ||| e.bit := by
    rw [BitVec.or_assoc, BitVec.or_comm e.bit, BitVec.or_assoc]
  rcases he with rfl | rfl <;> simp only [State.transformed, raise_events, hor] <;> rfl

/-- With the engine busy an enabled framer drops: the transform leaves it enabled, and the order of
the two does not matter. -/
theorem exec_decision_transformed (hbusy : s.xfBusy = true) (hen : s.frmEnabled = true)
    (h : exec s.decision.toInstr s = .next t) :
    t.xfBusy = true ∧ s.transformed.frmEnabled = true ∧
      exec s.transformed.decision.toInstr s.transformed = .next t.transformed := by
  have hdec : s.transformed.decision = s.decision := rfl
  rcases exec_decision_cases hen h with ⟨hd, rfl⟩ | ⟨len, hd, rfl⟩ | ⟨len, hd, hready, rfl⟩
  · rw [exec_decision_drop1 (hdec.trans hd), transformed_raise _ (.inl rfl)]
    exact ⟨by simpa using hbusy, (frmEnabled_iff _).2 (.inl hd), rfl⟩
  · rw [exec_decision_drop4 (hdec.trans hd), transformed_raise _ (.inr rfl)]
    exact ⟨by simpa using hbusy, (frmEnabled_iff _).2 (.inr (.inl ⟨len, hd⟩)), rfl⟩
  · simp [State.emitReady, hbusy] at hready

/-! ### Two runs over the same bytes meet -/

section
open Relation (Join ReflGen ReflTransGen)

variable {b : Byte} {rest : List Byte}

theorem dataMove_byte (hready : s.dataReady = true) :
    DataMove (s, b :: rest) (s.appendByte b, rest) :=
  .byte hready (exec_inData_of_ready hready)

theorem dataMove_xf (hbusy : s.xfBusy = true) : DataMove (s, rest) (s.transformed, rest) :=
  .xf hbusy (exec_xfDone_of_busy hbusy)

theorem join_byte_frm (hready : s.dataReady = true) (hen : s.frmEnabled = true)
    (h : exec s.decision.toInstr s = .next t) :
    Join DataMove (s.appendByte b, rest) (t, b :: rest) :=
  ⟨(t.appendByte b, rest),
    .frm (frmEnabled_appendByte hen b) (exec_decision_appendByte hen h b),
    dataMove_byte (dataReady_of_exec_decision hen h hready)⟩

theorem join_byte_xf (hready : s.dataReady = true) (hbusy : s.xfBusy = true) :
    Join DataMove (s.appendByte b, rest) (s.transformed, b :: rest) :=
  ⟨(s.transformed.appendByte b, rest), dataMove_xf (s := s.appendByte b) hbusy,
    dataMove_byte (s := s.transformed) hready⟩

theorem join_frm_xf (hen : s.frmEnabled = true) (h : exec s.decision.toInstr s = .next t)
    (hbusy : s.xfBusy = true) : Join DataMove (t, rest) (s.transformed, rest) := by
  obtain ⟨htbusy, hsen, hexec⟩ := exec_decision_transformed hbusy hen h
  exact ⟨(t.transformed, rest), dataMove_xf htbusy, .frm hsen hexec⟩

/-- Two moves from the same place are one move, or each can still be made after the other. -/
theorem dataMove_diamond {c c₁ c₂ : State × List Byte} (h₁ : DataMove c c₁) (h₂ : DataMove c c₂) :
    c₁ = c₂ ∨ Join DataMove c₁ c₂ := by
  have hsymm := (Relation.Join.symm (r := DataMove)).symm
  cases h₁ with
  | byte hready h =>
    cases h₂ with
    | byte _ h' => cases h.symm.trans h'; exact .inl rfl
    | frm hen h' =>
      cases h.symm.trans (exec_inData_of_ready hready)
      exact .inr (join_byte_frm hready hen h')
    | xf hbusy h' =>
      cases h.symm.trans (exec_inData_of_ready hready)
      cases h'.symm.trans (exec_xfDone_of_busy hbusy)
      exact .inr (join_byte_xf hready hbusy)
  | frm hen h =>
    cases h₂ with
    | byte hready h' =>
      cases h'.symm.trans (exec_inData_of_ready hready)
      exact .inr (hsymm _ _ (join_byte_frm hready hen h))
    | frm _ h' => cases h.symm.trans h'; exact .inl rfl
    | xf hbusy h' =>
      cases h'.symm.trans (exec_xfDone_of_busy hbusy)
      exact .inr (join_frm_xf hen h hbusy)
  | xf hbusy h =>
    cases h.symm.trans (exec_xfDone_of_busy hbusy)
    cases h₂ with
    | byte hready h' =>
      cases h'.symm.trans (exec_inData_of_ready hready)
      exact .inr (hsymm _ _ (join_byte_xf hready hbusy))
    | frm hen h' => exact .inr (hsymm _ _ (join_frm_xf hen h' hbusy))
    | xf _ h' => cases h'.symm.trans (exec_xfDone_of_busy hbusy); exact .inl rfl

/-- A settled end makes no move. -/
theorem not_dataMove_of_settled (h : s.settled = true) (c : State × List Byte) :
    ¬ DataMove (s, []) c := by
  obtain ⟨hfrm, hidle⟩ := (settled_iff s).1 h
  rintro (_ | ⟨hen, -⟩ | ⟨hbusy, -⟩)
  · simp [hfrm] at hen
  · simp [hidle] at hbusy

/-- Settles O28: moves are confluent by the diamond, and a settled end is where no move is left. -/
theorem scheduleDoesNotMatter : Obligations.ScheduleDoesNotMatter := by
  unfold Obligations.ScheduleDoesNotMatter
  rintro s t₁ t₂ bytes ⟨hrun₁, hsettled₁⟩ ⟨hrun₂, hsettled₂⟩
  have hmeet : Join (ReflTransGen DataMove) (t₁, []) (t₂, []) := by
    refine Relation.church_rosser (fun c c₁ c₂ h₁ h₂ => ?_) hrun₁ hrun₂
    rcases dataMove_diamond h₁ h₂ with rfl | ⟨d, hd₁, hd₂⟩
    · exact ⟨c₁, .refl, .refl⟩
    · exact ⟨d, .single hd₁, .single hd₂⟩
  obtain ⟨d, hd₁, hd₂⟩ := hmeet
  rw [Relation.reflTransGen_iff_eq (not_dataMove_of_settled hsettled₁)] at hd₁
  rw [Relation.reflTransGen_iff_eq (not_dataMove_of_settled hsettled₂)] at hd₂
  exact congrArg Prod.fst (hd₁.symm.trans hd₂)

end

end Machine

end Sys2Proof

/-! PROOFS. The framer family: what a drop and an emit leave of the whole state, when STATUS shows a held emit, and the ceiling at every decision. -/

namespace Sys2Proof.Machine

/-! ### The drops (R113, R114) -/

/-- Settles O18: the two premises are the check that decides FR_DROP1, and the decided operation drops
and raises. -/
theorem frDrop1DropsOneByte : Obligations.FrDrop1DropsOneByte := by
  unfold Obligations.FrDrop1DropsOneByte
  intro s hhdr hmagic
  have hd : s.decision = .drop1 := frDecide_drop1_iff.2 ⟨hhdr, hmagic⟩
  refine ⟨hd, rfl, ?_⟩
  rw [exec_frDrop1, if_pos hd]
  rfl

/-- Settles O19: the three premises are the checks that decide FR_DROP4 with the length candidate, and
the decided operation drops and raises. -/
theorem frDrop4DropsTheMagic : Obligations.FrDrop4DropsTheMagic := by
  unfold Obligations.FrDrop4DropsTheMagic
  intro s hhdr hmagic hlen
  have hd : s.decision = .drop4 (u32le s.buf 4) := frDecide_drop4_iff.2 ⟨hhdr, hmagic, rfl, hlen⟩
  refine ⟨hd, fun _ => rfl, ?_⟩
  rw [exec_frDrop4, if_pos hd]
  rfl

/-! ### The emit (R116) -/

/-- The tee as one update: the message in the record, and CAPERR when the port in use answers FAIL. -/
theorem tee_eq (s : State) (p : List Byte) : s.tee p = { s with
    cnt := { s.cnt with
      capErrs := if s.ctrl.capEn = true ∧ s.port.capResp = .fail then s.cnt.capErrs + 1#32 else s.cnt.capErrs }
    events := if s.ctrl.capEn = true ∧ s.port.capResp = .fail then s.events ||| Event.capErr.bit else s.events
    port := { s.port with
      capLog := if s.ctrl.capEn then s.port.capLog ++ [⟨p.length, p⟩] else s.port.capLog } } := by
  cases hcap : s.ctrl.capEn with
  | false => simp [tee_off s p hcap]
  | true =>
    cases hresp : s.port.capResp with
    | ok => rw [tee_ok s p hcap hresp]; simp [State.sendCapture]
    | fail => rw [tee_fail s p hcap hresp]; simp [State.sendCapture, State.raise, State.eventEffects]

/-- The bits of two words side by side above the lower word's width are the upper word's. -/
theorem getLsbD_append_add {n m : Nat} (x : BitVec n) (y : BitVec m) (i : Nat) :
    (x ++ y).getLsbD (m + i) = x.getLsbD i := by
  simp [BitVec.getLsbD_append]

/-- STATUS.HELD, bit 6 of STATUS (R34): below it stand DISC, the two bits of the cause, XF_BUSY and the
two valid bits. -/
theorem getLsbD_statusWord_six (s : State) : s.statusWord.getLsbD 6 = s.held := by
  change s.statusWord.getLsbD (1 + (2 + (1 + (1 + (1 + 0))))) = s.held
  unfold State.statusWord
  iterate 5 refine (getLsbD_append_add ..).trans ?_
  exact (BitVec.getLsbD_append ..).trans (by simp)

/-- A held framer has no enabled step. -/
theorem frmEnabled_of_held {s : State} (h : s.held = true) : s.frmEnabled = false := by
  simp [State.frmEnabled, h]

/-- Settles O20: the premises decide FR_EMIT; not ready, it is held; ready, it is the tee, whose one
update is followed by the hand-over, the removal and the count. -/
theorem frEmitHandsThePayloadOn : Obligations.FrEmitHandsThePayloadOn := by
  unfold Obligations.FrEmitHandsThePayloadOn
  intro s _ hmagic hlen hframe
  have hd : s.decision = .emit (u32le s.buf 4) := frDecide_emit_iff.2 ⟨hmagic, rfl, hlen, hframe⟩
  refine ⟨hd, fun _ => rfl, fun hwait => ?_, fun hidle hcap => ?_⟩
  · have hheld : s.held = true := (held_iff s).2 ⟨⟨_, hd⟩, (emitReady_eq_false_iff s).2 hwait⟩
    exact ⟨(getLsbD_statusWord_six s).trans hheld, frmEnabled_of_held hheld⟩
  · have hready : s.emitReady = true := (emitReady_iff s).2 ⟨hidle, hcap⟩
    rw [exec_frEmit, if_pos ⟨hd, hready⟩, State.emitFrame, tee_eq, payloadOf_length s hd]
    rfl

/-! ### The ceiling (R118) -/

/-- A write that is not above MAX_PAYLOAD_HW is stored as it is (R38). -/
theorem legalCeiling_of_le {p : Params} {v : Word} (h : v.toNat ≤ p.maxPayloadHw.toNat) :
    legalCeiling p v = v := if_pos h

/-- Under a ceiling below its length a waiting frame becomes a reject: the other checks are the same. -/
theorem frDecide_drop4_of_waitPay {buf : List Byte} {m c c' len : Word}
    (h : frDecide buf m c = .waitPay len) (hc : c'.toNat < len.toNat) :
    frDecide buf m c' = .drop4 len := by
  obtain ⟨hhdr, hmagic, hlen, -, -⟩ := frDecide_waitPay_iff.1 h
  exact frDecide_drop4_iff.2 ⟨hhdr, hmagic, hlen, hc⟩

/-- Settles O27: the write stores the new ceiling and leaves BUF and MAGIC, so the next decision is
made under it; what FR_DROP4 took off BUF no write puts back. -/
theorem ceilingIsReadAtEveryDecision : Obligations.CeilingIsReadAtEveryDecision := by
  unfold Obligations.CeilingIsReadAtEveryDecision
  refine ⟨fun s v => ⟨s.setCeiling v, rfl, rfl⟩, fun s len v hd hv hlegal => ?_, fun s len v hd => ?_⟩
  · have hstored : (s.setCeiling v).maxPayload = v := legalCeiling_of_le hlegal
    refine ⟨s.setCeiling v, rfl, frDecide_drop4_of_waitPay hd ?_, rfl⟩
    rwa [hstored]
  · refine ⟨(s.dropHead 4).raise .lenRej, _, ?_, rfl, by simp⟩
    rw [exec_frDrop4, if_pos hd]

end Sys2Proof.Machine

/-! PROOFS. The transform family: the samples of a payload, and the one update by which XF_DONE publishes its spectrum. -/

namespace Sys2Proof.Machine

/-- Settles O33: the count, the pairs and the range of the samples, each by recursion on two bytes of
the payload at a time. -/
theorem samplesPairSignedBytes : Obligations.SamplesPairSignedBytes := by
  unfold Obligations.SamplesPairSignedBytes
  exact fun payload => ⟨samples_length payload, samples_getElem? payload, samples_inRange payload⟩

/-- One bin for each pair of payload bytes (R131, R132). -/
theorem spectrumBins_eq_map (p : Params) (payload : List Byte) :
    spectrumBins p payload = (List.range (payload.length / 2)).map (dbNum p (samples payload)) := by
  rw [spectrumBins, samples_length]

theorem xfPayload_of_some {s : State} {payload : List Byte} (h : s.xfIn = some payload) :
    s.xfPayload = payload := by
  rw [State.xfPayload, h, Option.getD_some]

/-- Settles O32: a busy engine's XF_DONE is one update, which writes the record of the payload in XF_IN
and counts by that payload's length. -/
theorem xfDonePublishesTheSpectrum : Obligations.XfDonePublishesTheSpectrum := by
  unfold Obligations.XfDonePublishesTheSpectrum
  intro s payload hbusy hin
  rw [exec_xfDone_of_busy hbusy, State.transformed, nextSpectrum_of_payload s hin,
    spectrumBins_eq_map, xfPayload_of_some hin]
  rfl

end Sys2Proof.Machine

/-! PROOFS. The host bus family: which accesses the bus contract admits and what each decodes to, that an admitted one completes, what the reads return and what the writes store. -/

namespace Sys2Proof

/-! ### The decoder of a bus access (R80, R84) -/

/-- Aligned is what the two low bits say (R54). -/
theorem extractLsb'_low_eq_zero_iff {n : Nat} (x : BitVec n) :
    x.extractLsb' 0 2 = 0#2 ↔ x.toNat % 4 = 0 := by
  simp [← BitVec.toNat_inj]

/-- An aligned full access is chosen by T alone (R80). -/
theorem decodeAccess_of_full {a : BusAccess} (halign : a.sel.toNat % 4 = 0) (hlanes : a.lanesOff = 0#4) :
    decodeAccess a = if a.sel.getLsbD 19 then decodeWrite (a.sel.extractLsb' 0 19) a.wdata
      else decodeRead (a.sel.extractLsb' 0 19) := by
  rw [decodeAccess, if_neg]
  simp [extractLsb'_low_eq_zero_iff, halign, hlanes]

/-- A full access to an aligned byte address, with T's top bit for the direction. -/
theorem decodeAccess_append (we : BitVec 1) {addr : BitVec 19} (h : addr.toNat % 4 = 0) (v : Word) :
    decodeAccess ⟨we ++ addr, v, 0#4⟩ = if we.getLsbD 0 then decodeWrite addr v else decodeRead addr := by
  have halign : (we ++ addr).toNat % 4 = 0 := by
    rw [← extractLsb'_low_eq_zero_iff, BitVec.extractLsb'_append_eq_of_add_le (by decide),
      extractLsb'_low_eq_zero_iff, h]
  have haddr : (we ++ addr).extractLsb' 0 19 = addr := BitVec.extractLsb'_append_eq_right
  have hwe : (we ++ addr).getLsbD 19 = we.getLsbD 0 := Machine.getLsbD_append_add we addr 0
  rw [decodeAccess_of_full halign rfl]
  simp only [haddr, hwe]

/-- An aligned full read is chosen by its byte address; its wdata is ignored. -/
theorem decodeAccess_read {sel : BitVec 20} (halign : sel.toNat % 4 = 0) (hread : sel.getLsbD 19 = false)
    (d : Word) : decodeAccess ⟨sel, d, 0#4⟩ = decodeRead (sel.extractLsb' 0 19) := by
  rw [decodeAccess_of_full halign rfl, if_neg (Bool.eq_false_iff.1 hread)]

theorem decodeAccess_write {sel : BitVec 20} (halign : sel.toNat % 4 = 0) (hwrite : sel.getLsbD 19 = true)
    (v : Word) : decodeAccess ⟨sel, v, 0#4⟩ = decodeWrite (sel.extractLsb' 0 19) v := by
  rw [decodeAccess_of_full halign rfl, if_pos hwrite]

theorem decodeAccess_readAccess {addr : BitVec 19} (h : addr.toNat % 4 = 0) :
    decodeAccess (readAccess addr) = decodeRead addr := decodeAccess_append 0#1 h _

theorem decodeAccess_writeAccess {addr : BitVec 19} (h : addr.toNat % 4 = 0) (v : Word) :
    decodeAccess (writeAccess addr v) = decodeWrite addr v := decodeAccess_append 1#1 h v

/-! ### BUS_BAD (R180) -/

theorem decodeRead_ne_busBad (addr : BitVec 19) (sel : BitVec 20) (v : Word) (l : BitVec 4) :
    decodeRead addr ≠ .busBad sel v l := by
  unfold decodeRead
  repeat' split
  all_goals exact Instr.noConfusion

theorem decodeWrite_ne_busBad (addr : BitVec 19) (d : Word) (sel : BitVec 20) (v : Word) (l : BitVec 4) :
    decodeWrite addr d ≠ .busBad sel v l := by
  unfold decodeWrite
  repeat' split
  all_goals exact Instr.noConfusion

/-- BUS_BAD is what the bus contract shuts out, with the access as its operands. -/
theorem decodeAccess_eq_busBad_iff (a : BusAccess) (sel : BitVec 20) (v : Word) (l : BitVec 4) :
    decodeAccess a = .busBad sel v l ↔
      (a.sel.toNat % 4 ≠ 0 ∨ a.lanesOff ≠ 0#4) ∧ a.sel = sel ∧ a.wdata = v ∧ a.lanesOff = l := by
  by_cases hbad : a.sel.toNat % 4 ≠ 0 ∨ a.lanesOff ≠ 0#4
  · rw [decodeAccess, if_pos (by rwa [ne_eq, extractLsb'_low_eq_zero_iff])]
    simp [hbad]
  · obtain ⟨halign, hlanes⟩ := not_or.1 hbad
    rw [decodeAccess_of_full (not_not.1 halign) (not_not.1 hlanes)]
    refine iff_of_false ?_ fun h => hbad h.1
    split
    · apply decodeWrite_ne_busBad
    · apply decodeRead_ne_busBad

/-! ### The bin window, the read-only and the reserved addresses (R165, R178, R179) -/

/-- Bit 18 of a byte address marks the bin window (R56). -/
theorem getLsbD_window_iff (addr : BitVec 19) : addr.getLsbD 18 = true ↔ 0x40000 ≤ addr.toNat := by
  change addr.msb = true ↔ _
  simp [BitVec.msb_eq_decide]

/-- The byte address of a half of bin `k`. -/
def binAddr (k : Nat) (high : Bool) : BitVec 19 :=
  BitVec.ofNat 19 (0x40000 + 8 * k + (if high then 4 else 0))

theorem toNat_binAddr {k : Nat} (hk : k < 32768) (high : Bool) :
    (binAddr k high).toNat = 0x40000 + 8 * k + (if high then 4 else 0) :=
  Nat.mod_eq_of_lt (by split <;> omega)

theorem binAddr_aligned {k : Nat} (hk : k < 32768) (high : Bool) : (binAddr k high).toNat % 4 = 0 := by
  rw [toNat_binAddr hk]
  split <;> omega

/-- A read at the address of a half of bin `k` names `k` and the half. -/
theorem decodeRead_binAddr {k : Nat} (hk : k < 32768) (high : Bool) :
    decodeRead (binAddr k high) = .rdBin (BitVec.ofNat 15 k) high := by
  have haddr := toNat_binAddr hk high
  have hbin : (binAddr k high).extractLsb' 3 15 = BitVec.ofNat 15 k := by
    apply BitVec.eq_of_toNat_eq
    rw [BitVec.extractLsb'_toNat, haddr, Nat.shiftRight_eq_div_pow, BitVec.toNat_ofNat]
    split <;> omega
  have hhalf : (binAddr k high).getLsbD 2 = high := by
    rw [BitVec.getLsbD, haddr, Nat.testBit_eq_decide_div_mod_eq]
    cases high <;> simp <;> omega
  rw [decodeRead, if_pos ((getLsbD_window_iff _).2 (by omega)), hbin, hhalf]

theorem readOnlyAddr_iff (addr : BitVec 19) : readOnlyAddr addr = true ↔ addr.toNat % 4 = 0 ∧
    (addr.toNat = 0x004 ∨ addr.toNat = 0x010 ∨ 0x018 ≤ addr.toNat ∧ addr.toNat ≤ 0x028 ∨
      0x030 ≤ addr.toNat ∧ addr.toNat ≤ 0x04C ∨ 0x40000 ≤ addr.toNat) := by
  simp [readOnlyAddr, alignedAddr, or_assoc]

theorem reservedAddr_iff (addr : BitVec 19) : reservedAddr addr = true ↔ addr.toNat % 4 = 0 ∧
    (addr.toNat = 0x02C ∨ 0x050 ≤ addr.toNat ∧ addr.toNat ≤ 0x3FFFC) := by
  simp [reservedAddr, alignedAddr]

theorem decodeWrite_of_readOnly {addr : BitVec 19} (h : readOnlyAddr addr = true) (v : Word) :
    decodeWrite addr v = .wrRo addr v := by
  obtain ⟨halign, hrange⟩ := (readOnlyAddr_iff addr).1 h
  unfold decodeWrite
  split
  · rfl
  · rename_i hwin
    rw [getLsbD_window_iff] at hwin
    split
    case h_20 => -- the default row: each read-only offset has a row before it
      simp only [imp_false] at *
      omega
    any_goals rfl
    all_goals omega

theorem getLsbD_window_of_reserved {addr : BitVec 19} (h : reservedAddr addr = true) :
    ¬ addr.getLsbD 18 = true := by
  rw [getLsbD_window_iff]
  obtain ⟨-, hrange⟩ := (reservedAddr_iff addr).1 h
  omega

theorem decodeWrite_of_reserved {addr : BitVec 19} (h : reservedAddr addr = true) (v : Word) :
    decodeWrite addr v = .wrRsvd addr v := by
  obtain ⟨halign, hrange⟩ := (reservedAddr_iff addr).1 h
  rw [decodeWrite, if_neg (getLsbD_window_of_reserved h)]
  split
  any_goals rfl
  all_goals omega

theorem decodeRead_of_reserved {addr : BitVec 19} (h : reservedAddr addr = true) :
    decodeRead addr = .rdRsvd addr := by
  obtain ⟨halign, hrange⟩ := (reservedAddr_iff addr).1 h
  rw [decodeRead, if_neg (getLsbD_window_of_reserved h)]
  split
  any_goals rfl
  all_goals omega

end Sys2Proof

namespace Sys2Proof.Machine

/-! ### The host's step (R150, R180) -/

/-- The host's turn runs the access at the head of its queue, after the access has left the port. -/
theorem step_host {s : State} {a : BusAccess} {q : List BusAccess} (hagent : s.nextTurn.agent = .host)
    (hqueue : s.port.busQueue = a :: q) : step s = exec (decodeAccess a) s.beginTurn.takeAccess := by
  have hword : s.beginTurn.portWord s.nextTurn.agent = some (.access a) := by
    rw [hagent, beginTurn_portWord]
    simp [State.portWord, hqueue]
  rw [step_of_decode hword rfl, hagent]
  rfl

/-- Settles O10: the contract's two premises are the decoder's test, and exec refuses what it picks. -/
theorem busBadIsRefused : Obligations.BusBadIsRefused := by
  unfold Obligations.BusBadIsRefused
  refine ⟨fun a => ⟨?_, fun sel v l h => ?_⟩, fun _ _ _ _ => rfl, fun s a q hagent hqueue hbad => ?_⟩
  · simp [decodeAccess_eq_busBad_iff]
  · obtain ⟨-, hsel, hv, hl⟩ := (decodeAccess_eq_busBad_iff a sel v l).1 h
    exact ⟨hsel.symm, hv.symm, hl.symm⟩
  · rw [step_host hagent hqueue, (decodeAccess_eq_busBad_iff a _ _ _).2 ⟨hbad, rfl, rfl, rfl⟩]
    rfl

/-- Settles O11: the access is no BUS_BAD, so its operation answers a next state, and no operation puts
back what the handshake took. -/
theorem alignedAccessAlwaysCompletes : Obligations.AlignedAccessAlwaysCompletes := by
  unfold Obligations.AlignedAccessAlwaysCompletes
  intro s a q hagent hqueue halign hlanes
  rw [step_host hagent hqueue]
  rcases exec_total (decodeAccess a) s.beginTurn.takeAccess with ⟨t, ht⟩ | ⟨sel, v, l, hbad⟩
  · refine ⟨t, ht, ?_⟩
    rw [exec_port ht]
    exact congrArg List.tail hqueue
  · obtain ⟨hout, -⟩ := (decodeAccess_eq_busBad_iff a sel v l).1 hbad
    exact absurd hout (by simp [halign, hlanes])

/-! ### What the reads return -/

/-- The packing of STATUS (R34): each field stands alone at its place. -/
theorem statusWord_fields (s : State) :
    s.statusWord.extractLsb' 1 2 = s.discCause.code ∧ s.statusWord.getLsbD 3 = s.xfBusy ∧
    s.statusWord.getLsbD 4 = s.pub.valid ∧ s.statusWord.getLsbD 5 = s.view.valid ∧
    s.statusWord.getLsbD 7 = s.quiescent ∧ s.statusWord.extractLsb' 8 24 = 0#24 := by
  unfold State.statusWord
  generalize s.quiescent = quiescent, s.held = held, s.view.valid = viewValid, s.pub.valid = pubValid,
    s.xfBusy = busy, s.discCause.code = cause, (s.runState == .disconnected) = disc
  revert quiescent held viewValid pubValid busy cause disc
  decide

/-- Settles O38: the fields of STATUS at their places, with held and quiescent by their decisions. -/
theorem rdStatusReturnsTheFields : Obligations.RdStatusReturnsTheFields := by
  unfold Obligations.RdStatusReturnsTheFields
  refine ⟨fun d => (decodeAccess_read (by decide) (by decide) d).trans (by decide),
    fun s => ⟨s.statusWord, rfl, getLsbD_statusWord_zero s, ?_⟩⟩
  obtain ⟨hcause, hbusy, hpub, hview, hquiet, hhigh⟩ := statusWord_fields s
  refine ⟨?_, hbusy, hpub, hview, ?_, ?_, hhigh⟩
  · rw [hcause]
    cases s.discCause <;> rfl
  · rw [getLsbD_statusWord_six, held_iff, emitReady_eq_false_iff]
  · rw [hquiet, quiescent_iff]

/-- CTRL as a number: EN counts 1, CAP_EN counts 2, the action bits nothing (R151). -/
theorem ctrlWord_eq_ofNat (c : Ctrl) : c.word = BitVec.ofNat 32 (c.en.toNat + 2 * c.capEn.toNat) := by
  obtain ⟨en, capEn⟩ := c
  cases en <;> cases capEn <;> rfl

theorem zext5_eq_zeroExtend (v : BitVec 5) : zext5 v = v.zeroExtend 32 :=
  (BitVec.setWidth_eq_append (by decide)).symm

/-- Settles O39: each selector's row of the decoder, and each read's answer. -/
theorem registerReadsReturnTheRegisters : Obligations.RegisterReadsReturnTheRegisters := by
  unfold Obligations.RegisterReadsReturnTheRegisters
  refine ⟨fun _ => ?_, fun s => ?_⟩
  · simp (disch := decide) only [decodeAccess_read]
    decide
  · rw [← ctrlWord_eq_ofNat, ← zext5_eq_zeroExtend, ← zext5_eq_zeroExtend]
    exact ⟨rfl, rfl, rfl, rfl, rfl, rfl, rfl, rfl, rfl, rfl⟩

/-- Settles O40: each selector's row of the decoder, and each read's counter. -/
theorem counterReadsReturnTheCounters : Obligations.CounterReadsReturnTheCounters := by
  unfold Obligations.CounterReadsReturnTheCounters
  refine ⟨fun _ => ?_, fun _ => ⟨rfl, rfl, rfl, rfl, rfl, rfl, rfl, rfl⟩⟩
  simp (disch := decide) only [decodeAccess_read]
  decide

/-- A half of a bin as a number (R52). -/
theorem binHalf_eq_ofNat (w : Word64) (high : Bool) :
    binHalf w high = BitVec.ofNat 32 (if high then w.toNat / 2 ^ 32 else w.toNat) := by
  cases high
  · rfl
  · simp only [binHalf, BitVec.extractLsb', Nat.shiftRight_eq_div_pow, if_true]

theorem viewBin_of_getElem? {s : State} {k : Nat} {w : Word64} (hlen : s.view.bins.length = s.view.nbins)
    (h : s.view.bins[k]? = some w) (high : Bool) : s.viewBin k high = binHalf w high := by
  obtain ⟨hk, rfl⟩ := List.getElem?_eq_some_iff.1 h
  rw [State.viewBin, if_pos (hlen ▸ hk), List.getD_eq_getElem _ _ hk]

theorem viewBin_of_le {s : State} {k : Nat} (h : s.view.nbins ≤ k) (high : Bool) :
    s.viewBin k high = 0#32 := if_neg (Nat.not_lt.2 h)

/-- Settles O41: the address decodes to RD_BIN of `k` and the half, which VIEW answers. -/
theorem rdBinReturnsHalfOfAViewBin : Obligations.RdBinReturnsHalfOfAViewBin := by
  unfold Obligations.RdBinReturnsHalfOfAViewBin
  intro s k high hk hlen a
  have hdecode : decodeAccess (readAccess a) = .rdBin (BitVec.ofNat 15 k) high :=
    (decodeAccess_readAccess (binAddr_aligned hk high)).trans (decodeRead_binAddr hk high)
  have hexec : exec (decodeAccess (readAccess a)) s = .next (s.busReturn (s.viewBin k high)) := by
    rw [hdecode, exec, execRdBin, BitVec.toNat_ofNat, Nat.mod_eq_of_lt hk]
  refine ⟨hdecode, fun w hw => ?_, fun hpast => ?_⟩
  · rw [hexec, viewBin_of_getElem? hlen hw, binHalf_eq_ofNat]
    rfl
  · rw [hexec, viewBin_of_le hpast]
    rfl

/-! ### What the writes store -/

/-- Settles O43: the decoder's rows for the two spaces, whose operations ignore a write and read 0. -/
theorem readOnlyAndReservedSpace : Obligations.ReadOnlyAndReservedSpace := by
  unfold Obligations.ReadOnlyAndReservedSpace
  refine fun s addr v => ⟨⟨rfl, rfl, rfl⟩, fun hro => ?_, fun hrsvd => ?_⟩
  · obtain ⟨halign, -⟩ := (readOnlyAddr_iff addr).1 hro
    rw [decodeAccess_writeAccess halign, decodeWrite_of_readOnly hro]
  · obtain ⟨halign, -⟩ := (reservedAddr_iff addr).1 hrsvd
    rw [decodeAccess_writeAccess halign, decodeAccess_readAccess halign]
    exact ⟨decodeWrite_of_reserved hrsvd v, decodeRead_of_reserved hrsvd⟩

/-- A CTRL write as one update: RESTART and SNAP touch different fields, and CLR_CNT comes last. -/
theorem writeCtrl_eq_update (s : State) (w : CtrlWrite) : s.writeCtrl w = { s with
    ctrl := ⟨w.en, w.capEn⟩
    buf := if w.restart then [] else s.buf
    headPos := if w.restart then 0 else s.headPos
    runState := if w.restart then .running else s.runState
    discCause := if w.restart then .none else s.discCause
    view := if w.snap then s.pub else s.view
    cnt := if w.clrCnt then Counters.zero
      else if w.restart then { s.cnt with discarded := s.cnt.discarded + BitVec.ofNat 32 s.buf.length }
      else s.cnt } := by
  obtain ⟨en, capEn, restart, snap, clrCnt⟩ := w
  cases restart <;> cases snap <;> cases clrCnt <;> rfl

/-- Settles O44: the one update of a CTRL write, with the fields of the word written. -/
theorem wrCtrlActsInOrder : Obligations.WrCtrlActsInOrder := by
  unfold Obligations.WrCtrlActsInOrder
  exact fun s v => ⟨decodeAccess_write (by decide) (by decide) v,
    congrArg Host.Outcome.next (writeCtrl_eq_update s (ctrlFields v))⟩

theorem eventBits_eq_setWidth (v : Word) : eventBits v = v.setWidth 5 :=
  (BitVec.setWidth_eq_extractLsb' (by decide)).symm

/-- The stored ceiling is the lesser of the two as unsigned numbers (R38). -/
theorem legalCeiling_toNat (p : Params) (v : Word) :
    (legalCeiling p v).toNat = min v.toNat p.maxPayloadHw.toNat := by
  unfold legalCeiling
  split <;> omega

/-- Settles O45: each selector's row of the decoder, and the field each write stores. -/
theorem registerWritesStoreTheirFields : Obligations.RegisterWritesStoreTheirFields := by
  unfold Obligations.RegisterWritesStoreTheirFields
  intro s v
  rw [← eventBits_eq_setWidth]
  simp (disch := decide) only [decodeAccess_write]
  exact ⟨rfl, rfl, rfl, rfl, rfl, legalCeiling s.params v, legalCeiling_toNat s.params v, rfl⟩

end Sys2Proof.Machine


/-! PROOFS. The other family, the invariant: every operation keeps it, so every step does. -/

namespace Sys2Proof.Machine

variable {s t : State} {i : Instr}

/-! ### The invariant, operation by operation -/

/-- The record of an empty slot is good for every bound. -/
theorem Spectrum.good_empty (n : Nat) : Spectrum.empty.Good n where
  length_eq := rfl
  nbins_le := Nat.zero_le n
  finite := by simp [Spectrum.empty]
  empty_of_invalid _ := rfl

/-- A state whose slots are empty, whose engine is idle and whose port is open, under a legal ceiling. -/
theorem inv_resetWith {p : Params} (hp : p.Legal) (q : Ports) : (State.resetWith p q).Inv where
  legal := hp
  buf_le := Nat.zero_le _
  ceiling_le := le_rfl
  busy_iff := rfl
  payload_le _ h := by cases h
  cause_iff := by simp
  disconnected_empty _ := rfl
  pub_good := Spectrum.good_empty _
  view_good := Spectrum.good_empty _
  view_valid h := h

namespace State.Inv

/-- The invariant does not speak of the ports. -/
theorem withPort (hs : s.Inv) (q : Ports) : (s.withPort q).Inv := { hs with }

/-- An enabled IN_DATA finds room in BUF, and the port open (R100). -/
theorem appendByte (hs : s.Inv) (hready : s.dataReady = true) (b : Byte) : (s.appendByte b).Inv := by
  obtain ⟨-, hrun, hroom⟩ := (dataReady_iff s).1 hready
  exact { hs with
    buf_le := by simpa using hroom
    disconnected_empty := by simp [hrun] }

/-- A disconnect writes a cause and empties BUF (R101, R102). -/
theorem disconnect (hs : s.Inv) {cause : DiscCause} (hcause : cause ≠ .none) :
    (s.raise (.disc cause)).Inv :=
  { hs with
    buf_le := Nat.zero_le _
    cause_iff := by simp [hcause]
    disconnected_empty := fun _ => rfl }

/-- Bytes dropped from the head leave a shorter BUF. -/
theorem dropHead (hs : s.Inv) (k : Nat) : (s.dropHead k).Inv :=
  { hs with
    buf_le := by have := hs.buf_le; simp; omega
    disconnected_empty := fun h => by simp [hs.disconnected_empty h] }

/-- An event but DISC writes EVENTS and a counter alone. -/
theorem raise_resync (hs : s.Inv) : (s.raise .resync).Inv := { hs with }

theorem raise_lenRej (hs : s.Inv) : (s.raise .lenRej).Inv := { hs with }

/-- The tee writes EVENTS, a counter and the record of capture messages alone. -/
theorem tee (hs : s.Inv) (p : List Byte) : (s.tee p).Inv := by
  rw [tee_eq]
  exact { hs with }

/-- The engine takes a payload that is not above the hardware bound (R68). -/
theorem handPayload (hs : s.Inv) {p : List Byte} (hp : p.length ≤ s.params.maxPayloadHw.toNat) :
    (s.handPayload p).Inv :=
  { hs with
    busy_iff := rfl
    payload_le := by rintro _ ⟨⟩; exact hp }

/-- A decided emit hands over a payload within the ceiling (R116). -/
theorem emitFrame (hs : s.Inv) {len : Word} (hd : s.decision = .emit len) :
    (s.emitFrame len.toNat).Inv := by
  have hlen : (payloadOf s.buf len.toNat).length ≤ s.params.maxPayloadHw.toNat := by
    obtain ⟨-, -, hle, -⟩ := frDecide_emit_iff.1 hd
    rw [payloadOf_length s hd]
    exact hle.trans hs.ceiling_le
  have hhand := (hs.tee (payloadOf s.buf len.toNat)).handPayload (by rwa [tee_params])
  exact { hhand.dropHead (8 + len.toNat) with }

/-- The record a transform publishes is good: its payload is within the hardware bound, and every bin
is finite (R134 P3). -/
theorem nextSpectrum_good (hs : s.Inv) : s.nextSpectrum.Good s.params.maxBins where
  length_eq := spectrumBins_length _ _
  nbins_le := by
    have hle : s.xfPayload.length ≤ s.params.maxPayloadHw.toNat := by
      rw [State.xfPayload]
      cases hin : s.xfIn with
      | none => exact Nat.zero_le _
      | some p => exact hs.payload_le p hin
    exact Nat.div_le_div_right hle
  finite := spectrumBins_finite hs.legal _
  empty_of_invalid h := by cases h

/-- The transform publishes a good record and leaves the engine idle (R135). -/
theorem transformed (hs : s.Inv) : s.transformed.Inv :=
  { hs with
    busy_iff := rfl
    payload_le := fun _ h => by cases h
    pub_good := hs.nextSpectrum_good
    view_valid := fun _ => rfl }

/-- RESTART opens the port over an empty BUF (R153). -/
theorem restart (hs : s.Inv) : s.restart.Inv :=
  { hs with
    buf_le := Nat.zero_le _
    cause_iff := by simp
    disconnected_empty := fun _ => rfl }

/-- SNAP copies a good record (R154). -/
theorem snap (hs : s.Inv) : s.snap.Inv := { hs with view_good := hs.pub_good, view_valid := id }

/-- A CTRL write keeps the invariant action by action, in R152's order. -/
theorem writeCtrl (hs : s.Inv) (w : CtrlWrite) : (s.writeCtrl w).Inv := by
  have hset : (s.setCtrl w.en w.capEn).Inv := { hs with }
  have hrestart := iteInduction (c := w.restart = true) (fun _ => hset.restart) fun _ => hset
  have hsnap := iteInduction (c := w.snap = true) (fun _ => hrestart.snap) fun _ => hrestart
  exact iteInduction (fun _ => { hsnap with }) fun _ => hsnap

/-- A MAX_PAYLOAD write stores a legal ceiling (R38). -/
theorem setCeiling (hs : s.Inv) (v : Word) : (s.setCeiling v).Inv :=
  { hs with ceiling_le := by simp [legalCeiling_toNat] }

end State.Inv

/-- Every operation keeps the invariant. -/
theorem exec_keeps_inv (hs : s.Inv) (h : exec i s = .next t) : t.Inv := by
  induction h using exec_next_cases with
  | stay => exact hs
  | inData b _ hready => exact hs.appendByte hready b
  | inEos => exact hs.disconnect (by simp)
  | inErr => exact hs.disconnect (by simp)
  | frDrop1 => exact (hs.dropHead 1).raise_resync
  | frDrop4 => exact (hs.dropHead 4).raise_lenRej
  | frEmit len _ hd => exact hs.emitFrame hd
  | xfDone h hbusy =>
    rw [Host.Outcome.next.inj (h.symm.trans (exec_xfDone_of_busy hbusy))]
    exact hs.transformed
  | wrCtrl v => exact hs.writeCtrl _
  | wrMaxPayload v => exact hs.setCeiling v
  | reset => exact inv_resetWith hs.legal s.port
  | _ => exact { hs with }

/-- Settles O59: a turn and a handshake change the ports only, of which the invariant does not speak,
and every operation keeps it. -/
theorem everyStepKeepsTheInvariant : Obligations.EveryStepKeepsTheInvariant := by
  unfold Obligations.EveryStepKeepsTheInvariant
  intro s t hs h
  rcases step_cases h with ht | ⟨i, q, hexec⟩
  · rw [ht]
    exact hs.withPort _
  · exact exec_keeps_inv (hs.withPort q) hexec

/-- Settles O58: the default build is legal, and reset empties the slots. -/
theorem resetMeetsTheInvariant : Obligations.ResetMeetsTheInvariant :=
  inv_resetWith legal_default Ports.quiet

end Sys2Proof.Machine


/-! PROOFS. The other family, the encodings: decode and encode against each other over all 38 operations, the opcode table's bus rows against the decoder, the decision map against the checks on the bytes. -/

namespace Sys2Proof

/-! ### Decode of encode -/

/-- The decision map of a window given by its two fields (R77, R83). -/
theorem decodeWindow_append (c : FrameCtx) (level : Nat) (len magic : Word) :
    decodeWindow c level (len ++ magic) =
      if level < 8 then .frWaitHdr
      else if magic ≠ c.magic then .frDrop1
      else if len.toNat > c.maxPayload.toNat then .frDrop4 len
      else if level < 8 + len.toNat then .frWaitPay len
      else .frEmit len := by
  simp only [decodeWindow, BitVec.extractLsb'_append_eq_left, BitVec.extractLsb'_append_eq_right]

theorem decode_readAccess (c : FrameCtx) {addr : BitVec 19} {i : Instr} (halign : addr.toNat % 4 = 0)
    (hi : decodeRead addr = i) : decode c (.access (readAccess addr)) = .ok i := by
  rw [decode, decodeAccess_readAccess halign, hi]

theorem decode_writeAccess (c : FrameCtx) {addr : BitVec 19} {v : Word} {i : Instr}
    (halign : addr.toNat % 4 = 0) (hi : decodeWrite addr v = i) :
    decode c (.access (writeAccess addr v)) = .ok i := by
  rw [decode, decodeAccess_writeAccess halign, hi]

/-- Two words side by side as a number. -/
theorem toNat_append_eq_add {n m : Nat} (x : BitVec n) (y : BitVec m) :
    (x ++ y).toNat = x.toNat * 2 ^ m + y.toNat := by
  rw [BitVec.toNat_append, ← Nat.shiftLeft_add_eq_or_of_lt y.isLt, Nat.shiftLeft_eq]

/-- The four fields of a bin's address (R56): the window bit, `k`, the half, and 00. -/
theorem append_eq_binAddr (k : BitVec 15) (high : Bool) :
    1#1 ++ k ++ BitVec.ofBool high ++ 0#2 = binAddr k.toNat high := by
  apply BitVec.eq_of_toNat_eq
  rw [toNat_binAddr k.isLt]
  simp only [toNat_append_eq_add, BitVec.toNat_ofBool]
  cases high <;> simp <;> omega

/-- An aligned address in the bin window is that of a half of a bin. -/
theorem exists_eq_binAddr {addr : BitVec 19} (halign : addr.toNat % 4 = 0)
    (hwin : 0x40000 ≤ addr.toNat) :
    (addr.toNat - 0x40000) / 8 < 32768 ∧
      addr = binAddr ((addr.toNat - 0x40000) / 8) (decide ((addr.toNat - 0x40000) % 8 = 4)) := by
  have hlt := addr.isLt
  have hk : (addr.toNat - 0x40000) / 8 < 32768 := by omega
  refine ⟨hk, BitVec.eq_of_toNat_eq ?_⟩
  rw [toNat_binAddr hk]
  simp only [decide_eq_true_eq]
  split <;> omega

/-- Settles O1: a beat by its kind, a window by the row its fields pick, an access by its address. -/
theorem decodeOfEncodeIsTheInstruction : Obligations.DecodeOfEncodeIsTheInstruction := by
  unfold Obligations.DecodeOfEncodeIsTheInstruction
  intro c i hwf
  cases i with
  | inData b => exact decodeBeat_data b
  | inEos b => exact decodeBeat_eos b
  | inErr b => exact decodeBeat_err b
  | frWaitHdr => rfl
  | frDrop1 =>
    have hne : ~~~c.magic ≠ c.magic := (BitVec.ne_not_self (by decide)).symm
    simp [encode, decode, decodeWindow_append, hne]
  | frDrop4 len =>
    have hlen : c.maxPayload.toNat < len.toNat := by simpa [WellFormed] using hwf
    simp [encode, decode, decodeWindow_append, hlen]
  | frWaitPay len =>
    have hlen : 0 < len.toNat ∧ len.toNat ≤ c.maxPayload.toNat := by simpa [WellFormed] using hwf
    simp only [encode, decode, decodeWindow_append]
    rw [if_neg (by omega), if_neg (by simp), if_neg (by omega), if_pos (by omega)]
  | frEmit len =>
    have hlen : len.toNat ≤ c.maxPayload.toNat := by simpa [WellFormed] using hwf
    simp only [encode, decode, decodeWindow_append]
    rw [if_neg (by omega), if_neg (by simp), if_neg (by omega), if_neg (by omega)]
  | rdBin k high =>
    rw [encode, append_eq_binAddr]
    refine decode_readAccess c (binAddr_aligned k.isLt high) ((decodeRead_binAddr k.isLt high).trans ?_)
    rw [BitVec.ofNat_toNat, BitVec.setWidth_eq]
  | wrRo addr v =>
    exact decode_writeAccess c ((readOnlyAddr_iff addr).1 hwf).1 (decodeWrite_of_readOnly hwf v)
  | rdRsvd addr =>
    exact decode_readAccess c ((reservedAddr_iff addr).1 hwf).1 (decodeRead_of_reserved hwf)
  | wrRsvd addr v =>
    exact decode_writeAccess c ((reservedAddr_iff addr).1 hwf).1 (decodeWrite_of_reserved hwf v)
  | busBad sel v l =>
    have hbad : sel.toNat % 4 ≠ 0 ∨ l ≠ 0#4 := by simpa [WellFormed] using hwf
    exact congrArg _ ((decodeAccess_eq_busBad_iff ⟨sel, v, l⟩ sel v l).2 ⟨hbad, rfl, rfl, rfl⟩)
  | wrCtrl v => exact decode_writeAccess c rfl rfl
  | wrEvents v => exact decode_writeAccess c rfl rfl
  | wrIrqEn v => exact decode_writeAccess c rfl rfl
  | wrMaxPayload v => exact decode_writeAccess c rfl rfl
  | xfDone => rfl
  | reset => rfl
  | _ => exact decode_readAccess c rfl rfl

/-! ### Encode of decode -/

/-- Settles O4: each word's row of the decoder. -/
theorem specWordsDecode : Obligations.SpecWordsDecode := by
  unfold Obligations.SpecWordsDecode
  decide

/-- A byte address that is a given number. -/
theorem eq_ofNat_of_toNat_eq {addr : BitVec 19} {n : Nat} (h : addr.toNat = n) :
    addr = BitVec.ofNat 19 n := by
  rw [← h, BitVec.ofNat_toNat, BitVec.setWidth_eq]

/-- Encoding what a read decodes to gives its address back. -/
theorem encode_decodeRead (c : FrameCtx) {addr : BitVec 19} (halign : addr.toNat % 4 = 0) :
    encode c (decodeRead addr) = .access (readAccess addr) := by
  by_cases hwin : addr.getLsbD 18 = true
  · obtain ⟨hk, haddr⟩ := exists_eq_binAddr halign ((getLsbD_window_iff addr).1 hwin)
    rw [haddr, decodeRead_binAddr hk, encode, append_eq_binAddr, BitVec.toNat_ofNat,
      Nat.mod_eq_of_lt hk]
  · rw [decodeRead, if_neg hwin]
    split
    any_goals rename_i haddr; rw [eq_ofNat_of_toNat_eq haddr]
    all_goals rfl

/-- Encoding what a write decodes to gives its address and its word back. -/
theorem encode_decodeWrite (c : FrameCtx) (addr : BitVec 19) (v : Word) :
    encode c (decodeWrite addr v) = .access (writeAccess addr v) := by
  unfold decodeWrite
  split
  · rfl
  · split
    any_goals rename_i haddr; rw [eq_ofNat_of_toNat_eq haddr]
    all_goals rfl

/-- A beat is its kind and its byte (R78). -/
theorem kind_append_data (b : BitVec 10) : b.extractLsb' 8 2 ++ b.extractLsb' 0 8 = b :=
  BitVec.extractLsb'_append_extractLsb'

/-- A selector is its top bit and its byte address (R80). -/
theorem direction_append_addr (sel : BitVec 20) :
    BitVec.ofBool (sel.getLsbD 19) ++ sel.extractLsb' 0 19 = sel := by
  have htop : BitVec.ofBool (sel.getLsbD 19) = sel.extractLsb' 19 1 := by
    apply BitVec.eq_of_getLsbD_eq
    simp [BitVec.getLsbD_ofBool]
  rw [htop]
  exact BitVec.extractLsb'_append_extractLsb'

/-- An aligned selector is one of an aligned byte address. -/
theorem addr_aligned {sel : BitVec 20} (h : sel.toNat % 4 = 0) :
    (sel.extractLsb' 0 19).toNat % 4 = 0 := by
  rw [BitVec.extractLsb'_toNat, Nat.shiftRight_zero]
  omega

/-- Encoding what a beat decodes to gives the beat back, its kind told by the operation. -/
theorem encode_of_decodeBeat (c : FrameCtx) {b : BitVec 10} {i : Instr} (hi : decodeBeat b = .ok i) :
    encode c i = .beat b := by
  rcases decodeBeat_ok_cases hi with ⟨hkind, rfl⟩ | ⟨hkind, rfl⟩ | ⟨hkind, rfl⟩
  all_goals rw [encode, ← hkind, kind_append_data]

/-- Encoding what an access decodes to: outside the contract the access itself, inside it the direction
and the address that select the operation, and a write's word. -/
theorem encode_decodeAccess (c : FrameCtx) (a : BusAccess) : ∃ a' : BusAccess,
    encode c (decodeAccess a) = .access a' ∧ a'.sel = a.sel ∧ a'.lanesOff = a.lanesOff ∧
    (a.sel.getLsbD 19 = true ∨ a.sel.extractLsb' 0 2 ≠ 0#2 ∨ a.lanesOff ≠ 0#4 → a'.wdata = a.wdata) := by
  by_cases hbad : a.sel.toNat % 4 ≠ 0 ∨ a.lanesOff ≠ 0#4
  · refine ⟨a, ?_, rfl, rfl, fun _ => rfl⟩
    rw [(decodeAccess_eq_busBad_iff a _ _ _).2 ⟨hbad, rfl, rfl, rfl⟩]
    rfl
  · obtain ⟨halign, hlanes⟩ := not_or.1 hbad
    rw [not_not] at halign hlanes
    have hsel := direction_append_addr a.sel
    rw [decodeAccess_of_full halign hlanes]
    cases hdir : a.sel.getLsbD 19 with
    | true =>
      rw [hdir] at hsel
      exact ⟨_, encode_decodeWrite c _ _, hsel, hlanes.symm, fun _ => rfl⟩
    | false =>
      rw [hdir] at hsel
      refine ⟨_, encode_decodeRead c (addr_aligned halign), hsel, hlanes.symm, fun h => ?_⟩
      simp [extractLsb'_low_eq_zero_iff, halign, hlanes] at h

/-- Settles O2: a beat is its kind and its byte; an access is its direction and its address. -/
theorem encodeOfDecodeRestoresTheBits : Obligations.EncodeOfDecodeRestoresTheBits := by
  unfold Obligations.EncodeOfDecodeRestoresTheBits
  exact ⟨fun c _ _ hi => encode_of_decodeBeat c hi, encode_decodeAccess⟩

/-! ### The opcode table's bus rows (R84) -/

/-- Two rows that no selector satisfies both: they differ in a bit that both fix. -/
def BusPattern.Disjoint (p q : BusPattern) : Prop :=
  (p.pattern ^^^ q.pattern) &&& (p.mask &&& q.mask) ≠ 0#20

theorem BusPattern.Disjoint.not_hits {p q : BusPattern} (h : p.Disjoint q) {sel : BitVec 20}
    (hp : p.hits sel = true) : q.hits sel = false := by
  rw [Bool.eq_false_iff]
  intro hq
  rw [BusPattern.hits, beq_iff_eq] at hp hq
  refine h ?_
  have hbit : ∀ x a b : Bool, (((x && a) ^^ (x && b)) && (a && b)) = false := by decide
  rw [← hp, ← hq]
  ext j hj
  simpa using hbit sel[j] p.mask[j] q.mask[j]

/-- No selector satisfies two rows of the table. -/
theorem busTable_pairwise_disjoint : busTable.Pairwise BusPattern.Disjoint := by
  unfold BusPattern.Disjoint
  decide

/-- Of rows that are disjoint a selector picks the one that it satisfies. -/
theorem filter_hits_eq_singleton {rows : List BusPattern} (hrows : rows.Pairwise BusPattern.Disjoint)
    {sel : BitVec 20} {p : BusPattern} (hp : p ∈ rows) (hit : p.hits sel = true) :
    rows.filter (fun q => q.hits sel) = [p] := by
  induction hrows with
  | nil => cases hp
  | @cons r rows hr hrows ih =>
    rcases List.mem_cons.1 hp with rfl | hmem
    · have hrest : rows.filter (fun q => q.hits sel) = [] :=
        List.filter_eq_nil_iff.2 fun q hq => by simp [(hr q hq).not_hits hit]
      simp [hit, hrest]
    · have hmiss : r.hits sel = false := by
        by_contra hr'
        rw [Bool.not_eq_false] at hr'
        simp [(hr p hmem).not_hits hr'] at hit
      simp [hmiss, ih hmem]

/-- The mask of a block of `2 ^ k` addresses: it fixes the bits from `k` on, and the two low ones. -/
def blockMask (k : Nat) : BitVec 20 := BitVec.ofNat 20 (2 ^ k * (2 ^ (20 - k) - 1) + 3)

/-- A block's mask takes an aligned number to the block's first one. -/
theorem and_blockMask {n : Nat} (halign : n % 4 = 0) {j k : Nat} (hn : n < 2 ^ (j + k)) (h2 : 2 ≤ k) :
    n &&& (2 ^ k * (2 ^ j - 1) + 3) = 2 ^ k * (n / 2 ^ k) := by
  have hpow : 2 ^ 2 ≤ 2 ^ k := Nat.pow_le_pow_right (by decide) h2
  have hhigh : n / 2 ^ k < 2 ^ j := Nat.div_lt_of_lt_mul (by rwa [Nat.pow_add, Nat.mul_comm] at hn)
  have hdiv : (n &&& (2 ^ k * (2 ^ j - 1) + 3)) / 2 ^ k = n / 2 ^ k := by
    rw [Nat.and_div_two_pow, Nat.mul_add_div (by omega), Nat.div_eq_of_lt (by omega : 3 < 2 ^ k),
      Nat.add_zero, Nat.and_two_pow_sub_one_of_lt_two_pow hhigh]
  have hmod : (n &&& (2 ^ k * (2 ^ j - 1) + 3)) % 2 ^ k = 0 := by
    rw [Nat.and_mod_two_pow, Nat.mul_add_mod, Nat.mod_eq_of_lt (by omega : 3 < 2 ^ k),
      Nat.and_two_pow_sub_one_eq_mod _ 2, Nat.mod_mod_of_dvd _ (Nat.pow_dvd_pow 2 h2), halign]
  rw [← Nat.div_add_mod (n &&& _) (2 ^ k), hdiv, hmod, Nat.add_zero]

theorem toNat_blockMask {k : Nat} (h2 : 2 ≤ k) (h20 : k ≤ 20) :
    (blockMask k).toNat = 2 ^ k * (2 ^ (20 - k) - 1) + 3 := by
  have hpow : 2 ^ 2 ≤ 2 ^ k := Nat.pow_le_pow_right (by decide) h2
  rw [blockMask, BitVec.toNat_ofNat, Nat.mod_eq_of_lt]
  rw [Nat.mul_sub, ← Nat.pow_add, Nat.add_sub_cancel' h20]
  omega

/-- A row that is a block picks the aligned accesses of its direction to the block's addresses. -/
theorem hits_block (mnemonic : String) (dir : BitVec 1) {addr : BitVec 19}
    (halign : addr.toNat % 4 = 0) {first k : Nat} (h2 : 2 ≤ k) (h19 : k ≤ 19)
    (h : 2 ^ k * (addr.toNat / 2 ^ k) = first) :
    BusPattern.hits ⟨mnemonic, dir ++ BitVec.ofNat 19 first, blockMask k⟩ (dir ++ addr) = true := by
  have hfirst : first < 2 ^ 19 := (h ▸ Nat.mul_div_le addr.toNat (2 ^ k)).trans_lt addr.isLt
  have hdir : dir.toNat * 2 ^ 19 = 2 ^ k * (dir.toNat * 2 ^ (19 - k)) := by
    rw [← Nat.mul_left_comm, ← Nat.pow_add, Nat.add_sub_cancel' h19]
  rw [BusPattern.hits, beq_iff_eq]
  apply BitVec.eq_of_toNat_eq
  rw [BitVec.toNat_and, toNat_blockMask h2 (by omega), and_blockMask _ _ h2]
  · rw [toNat_append_eq_add, toNat_append_eq_add, BitVec.toNat_ofNat, Nat.mod_eq_of_lt hfirst, hdir,
      Nat.mul_add_div (by positivity), Nat.mul_add, h]
  · rw [toNat_append_eq_add]
    omega
  · rw [Nat.sub_add_cancel (by omega)]
    exact (dir ++ addr).isLt

/-- The reserved addresses of R179 as blocks: the first address and the number of low bits. -/
def reservedBlocks : List (Nat × Nat) :=
  [(0x0002C, 2), (0x00050, 4), (0x00060, 5), (0x00080, 7), (0x00100, 8), (0x00200, 9), (0x00400, 10),
    (0x00800, 11), (0x01000, 12), (0x02000, 13), (0x04000, 14), (0x08000, 15), (0x10000, 16),
    (0x20000, 17)]

/-- The table's reserved rows are these blocks, under the direction of the selector. -/
theorem busReservedRows_eq (mnemonic : String) (dir : BitVec 1) :
    busReservedRows mnemonic (dir ++ 0#19) = reservedBlocks.map fun b =>
      ⟨mnemonic, dir ++ BitVec.ofNat 19 b.1, blockMask b.2⟩ := by
  have hdir : dir = 0#1 ∨ dir = 1#1 := by revert dir; decide
  rcases hdir with rfl | rfl <;> rfl

theorem exists_reservedBlock {n : Nat} (halign : n % 4 = 0) (h : n = 0x02C ∨ 0x050 ≤ n ∧ n ≤ 0x3FFFC) :
    ∃ b ∈ reservedBlocks, 2 ^ b.2 * (n / 2 ^ b.2) = b.1 := by
  simp only [reservedBlocks, List.mem_cons, List.not_mem_nil, or_false, exists_eq_or_imp, exists_eq_left]
  omega

/-- Every access to a reserved address has a reserved row of its direction. -/
theorem exists_reservedRow (mnemonic : String) (dir : BitVec 1) {addr : BitVec 19}
    (h : reservedAddr addr = true) : ∃ p ∈ busReservedRows mnemonic (dir ++ 0#19),
      p.hits (dir ++ addr) = true ∧ p.mnemonic = mnemonic := by
  obtain ⟨halign, hrange⟩ := (reservedAddr_iff addr).1 h
  obtain ⟨b, hb, hblock⟩ := exists_reservedBlock halign hrange
  have hsizes : ∀ b ∈ reservedBlocks, 2 ≤ b.2 ∧ b.2 ≤ 19 := by decide
  obtain ⟨h2, h19⟩ := hsizes b hb
  rw [busReservedRows_eq]
  exact ⟨_, List.mem_map.2 ⟨b, hb, rfl⟩, hits_block mnemonic dir halign h2 h19 hblock, rfl⟩

/-- The window is one block. -/
theorem hits_window (mnemonic : String) (dir : BitVec 1) {addr : BitVec 19}
    (halign : addr.toNat % 4 = 0) (hwin : addr.getLsbD 18 = true) :
    BusPattern.hits ⟨mnemonic, dir ++ 0x40000#19, 0xC0003#20⟩ (dir ++ addr) = true := by
  rw [getLsbD_window_iff] at hwin
  exact hits_block mnemonic dir halign (k := 18) (by decide) (by decide) (by omega)

/-- Every aligned full read has a row under the mnemonic of its operation. -/
theorem exists_readRow {addr : BitVec 19} (halign : addr.toNat % 4 = 0) :
    ∃ p ∈ busTable, p.hits (0#1 ++ addr) = true ∧ p.mnemonic = busMnemonic (decodeRead addr) := by
  by_cases hwin : addr.getLsbD 18 = true
  · rw [decodeRead, if_pos hwin]
    exact ⟨_, by decide, hits_window "RD_BIN" 0#1 halign hwin, rfl⟩
  · rw [decodeRead, if_neg hwin]
    rw [getLsbD_window_iff] at hwin
    split
    case h_20 => -- no register's offset: the address is reserved
      have hrsvd : reservedAddr addr = true := by
        rw [reservedAddr_iff]
        simp only [imp_false] at *
        omega
      obtain ⟨p, hp, hit, hname⟩ := exists_reservedRow "RD_RSVD" 0#1 hrsvd
      exact ⟨p, by simp [busTable, show p ∈ busReservedRows "RD_RSVD" 0x00000#20 from hp], hit, hname⟩
    all_goals
      rename_i haddr
      rw [eq_ofNat_of_toNat_eq haddr]
      decide

/-- Every aligned full write has a row under the mnemonic of its operation. -/
theorem exists_writeRow {addr : BitVec 19} (halign : addr.toNat % 4 = 0) (v : Word) :
    ∃ p ∈ busTable, p.hits (1#1 ++ addr) = true ∧ p.mnemonic = busMnemonic (decodeWrite addr v) := by
  by_cases hwin : addr.getLsbD 18 = true
  · rw [decodeWrite, if_pos hwin]
    exact ⟨_, by decide, hits_window "WR_RO" 1#1 halign hwin, rfl⟩
  · rw [decodeWrite, if_neg hwin]
    rw [getLsbD_window_iff] at hwin
    split
    case h_20 => -- no register's offset: the address is reserved
      have hrsvd : reservedAddr addr = true := by
        rw [reservedAddr_iff]
        simp only [imp_false] at *
        omega
      obtain ⟨p, hp, hit, hname⟩ := exists_reservedRow "WR_RSVD" 1#1 hrsvd
      exact ⟨p, by simp [busTable, show p ∈ busReservedRows "WR_RSVD" 0x80000#20 from hp], hit, hname⟩
    all_goals
      rename_i haddr
      rw [eq_ofNat_of_toNat_eq haddr]
      simp only [busMnemonic]
      decide

/-- A misaligned selector has the BUS_BAD row of its two low bits. -/
theorem exists_busBadRow {sel : BitVec 20} (h : sel.toNat % 4 ≠ 0) :
    ∃ p ∈ busTable, p.hits sel = true ∧ p.mnemonic = "BUS_BAD" := by
  have hlow : (sel &&& 3#20).toNat = sel.toNat % 4 := Nat.and_two_pow_sub_one_eq_mod sel.toNat 2
  refine ⟨⟨"BUS_BAD", sel &&& 3#20, 3#20⟩, ?_, beq_self_eq_true _, rfl⟩
  have hcases : sel &&& 3#20 = 1#20 ∨ sel &&& 3#20 = 2#20 ∨ sel &&& 3#20 = 3#20 := by
    simp only [← BitVec.toNat_inj, hlow, BitVec.toNat_ofNat]
    omega
  rcases hcases with h | h | h <;> rw [h] <;> decide

/-- Settles O3: the rows are disjoint, and each selector has a row under the mnemonic of its operation,
misaligned, read or write. -/
theorem busTablePartitionsTheSelectors : Obligations.BusTablePartitionsTheSelectors := by
  unfold Obligations.BusTablePartitionsTheSelectors
  intro sel v
  obtain ⟨p, hp, hit, hname⟩ : ∃ p ∈ busTable, p.hits sel = true ∧
      p.mnemonic = busMnemonic (decodeAccess ⟨sel, v, 0#4⟩) := by
    by_cases halign : sel.toNat % 4 = 0
    · have hsel := direction_append_addr sel
      rw [decodeAccess_of_full halign rfl]
      cases hdir : sel.getLsbD 19 with
      | true =>
        rw [hdir] at hsel
        obtain ⟨p, hp, hit, hname⟩ := exists_writeRow (addr_aligned halign) v
        exact ⟨p, hp, hsel ▸ hit, hname⟩
      | false =>
        rw [hdir] at hsel
        obtain ⟨p, hp, hit, hname⟩ := exists_readRow (addr_aligned halign)
        exact ⟨p, hp, hsel ▸ hit, hname⟩
    · rw [(decodeAccess_eq_busBad_iff ⟨sel, v, 0#4⟩ _ _ _).2 ⟨.inl halign, rfl, rfl, rfl⟩]
      exact exists_busBadRow halign
  rw [filter_hits_eq_singleton busTable_pairwise_disjoint hp hit, List.map_singleton, hname]

/-! ### The decision map (R83) -/

/-- Settles O5: the framer's presented window decodes to its decision in every state, so for every
buffer, MAGIC and ceiling. -/
theorem decisionMapAgreesWithFrDecide : Obligations.DecisionMapAgreesWithFrDecide := by
  unfold Obligations.DecisionMapAgreesWithFrDecide
  exact fun c buf => Machine.decodeWindow_headerWindow { Machine.State.reset with
    params := { magic := c.magic }, buf := buf, maxPayload := c.maxPayload }

end Sys2Proof


/-! PROOFS. The other family, the registers: every access against the register map, the words a write leaves, what one operation does to EVENTS and what EVENTS does to an operation, quiescence with the port closed, and reset. -/

namespace Sys2Proof.Machine

variable {s t : State} {i : Instr}

/-! ### The register map (R30, R31, R58) -/

/-- At an address that is none of the 19 offsets and below the window the map holds 0. -/
theorem memRead_of_reserved (s : State) {addr : BitVec 19} (h : reservedAddr addr = true) :
    s.memRead addr = 0#32 := by
  obtain ⟨-, hrange⟩ := (reservedAddr_iff addr).1 h
  simp (disch := omega) only [State.memRead, if_neg]

/-- An aligned read decodes to the operation that returns what the map holds at its address. -/
theorem exec_decodeRead (s : State) {addr : BitVec 19} (halign : addr.toNat % 4 = 0) :
    exec (decodeRead addr) s = .next (s.busReturn (s.memRead addr)) := by
  by_cases hwin : addr.getLsbD 18 = true
  · rw [getLsbD_window_iff] at hwin
    obtain ⟨hk, haddr⟩ := exists_eq_binAddr halign hwin
    rw [(congrArg decodeRead haddr).trans (decodeRead_binAddr hk _), memRead_window s hwin, exec,
      execRdBin, BitVec.toNat_ofNat, Nat.mod_eq_of_lt hk]
  · rw [decodeRead, if_neg hwin]
    rw [getLsbD_window_iff] at hwin
    split
    case h_20 => -- no register's offset: the address is reserved
      rw [memRead_of_reserved]
      · rfl
      · rw [reservedAddr_iff]
        simp only [imp_false] at *
        omega
    all_goals
      rename_i haddr
      rw [eq_ofNat_of_toNat_eq haddr]
      rfl

/-- Settles O42: an aligned read is chosen by its address, and each row of the decoder returns the map's
word. -/
theorem everyReadReturnsTheRegisterMap : Obligations.EveryReadReturnsTheRegisterMap := by
  unfold Obligations.EveryReadReturnsTheRegisterMap
  intro s addr halign
  rw [decodeAccess_readAccess halign]
  exact exec_decodeRead s halign

/-- An address whose write the map ignores. -/
theorem memWrite_of_ignored (s : State) {addr : BitVec 19} (v : Word)
    (h : addr.toNat ≠ 0x000 ∧ addr.toNat ≠ 0x008 ∧ addr.toNat ≠ 0x00C ∧ addr.toNat ≠ 0x014) :
    s.memWrite addr v = s := by
  obtain ⟨h0, h8, hC, h14⟩ := h
  simp only [State.memWrite, if_neg h0, if_neg h8, if_neg hC, if_neg h14]

/-- A write decodes to the operation that writes the map at its address. -/
theorem exec_decodeWrite (s : State) (addr : BitVec 19) (v : Word) :
    exec (decodeWrite addr v) s = .next (s.memWrite addr v) := by
  by_cases hwin : addr.getLsbD 18 = true
  · rw [decodeWrite, if_pos hwin, memWrite_of_ignored]
    · rfl
    · rw [getLsbD_window_iff] at hwin
      omega
  · rw [decodeWrite, if_neg hwin]
    split
    case h_20 => -- no register's offset
      rw [memWrite_of_ignored]
      · rfl
      · simp only [imp_false] at *
        omega
    all_goals
      rename_i haddr
      rw [eq_ofNat_of_toNat_eq haddr]
      rfl

/-- Settles O46: an aligned write is chosen by its address, and each row of the decoder writes the map
there. -/
theorem everyWriteFollowsTheRegisterMap : Obligations.EveryWriteFollowsTheRegisterMap := by
  unfold Obligations.EveryWriteFollowsTheRegisterMap
  intro s addr v halign
  rw [decodeAccess_writeAccess halign]
  exact exec_decodeWrite s addr v

section
variable (s : State) {addr : BitVec 19}

/-- EVENTS stands at 0x008 alone. -/
theorem memRead_clearEvents (bits : BitVec 5) (h : addr ≠ 0x008#19) :
    (s.clearEvents bits).memRead addr = s.memRead addr := by
  simp only [State.memRead, if_neg (mt eq_ofNat_of_toNat_eq h)]
  rfl

/-- IRQ_EN stands at 0x00C alone. -/
theorem memRead_setIrqEn (bits : BitVec 5) (h : addr ≠ 0x00C#19) :
    (s.setIrqEn bits).memRead addr = s.memRead addr := by
  simp only [State.memRead, if_neg (mt eq_ofNat_of_toNat_eq h)]
  rfl

/-- MAX_PAYLOAD stands at 0x014, and STATUS shows the decision made under it. -/
theorem memRead_setCeiling (v : Word) (h : addr ≠ 0x014#19) (hstatus : addr ≠ 0x004#19) :
    (s.setCeiling v).memRead addr = s.memRead addr := by
  simp only [State.memRead, if_neg (mt eq_ofNat_of_toNat_eq h),
    if_neg (mt eq_ofNat_of_toNat_eq hstatus)]
  rfl

end

/-- Settles O47: each write changes one field of the state, which the map shows at the named words
alone; the ignored writes change none. -/
theorem writesLeaveOtherWordsAlone : Obligations.WritesLeaveOtherWordsAlone := by
  unfold Obligations.WritesLeaveOtherWordsAlone
  refine fun s t v a addr => ⟨fun h hne => ?_, fun h hne => ?_, fun h hne hstatus => ?_, fun h => ?_,
    fun h => ?_⟩ <;> cases h
  · exact memRead_clearEvents s _ hne
  · exact memRead_setIrqEn s _ hne
  · exact memRead_setCeiling s v hne hstatus
  · rfl
  · rfl

/-! ### EVENTS (R210, R45) -/

/-- The bits an operation sets are those of one event. -/
theorem exec_events_set_unique {e f : Nat} (h : exec i s = .next t)
    (he : s.events.getLsbD e = false) (he' : t.events.getLsbD e = true)
    (hf : s.events.getLsbD f = false) (hf' : t.events.getLsbD f = true) : e = f := by
  rcases exec_events_cases h with hev | ⟨ev, -, hev⟩ | ⟨v, -, hev⟩ | ⟨-, hev⟩
  · simp [hev, he] at he'
  · have hplace : e = ev.place := (ev.getLsbD_bit e).1 (by simpa [hev, he] using he')
    have hplace' : f = ev.place := (ev.getLsbD_bit f).1 (by simpa [hev, hf] using hf')
    rw [hplace, hplace']
  · simp [hev, he] at he'
  · simp [hev] at he'

/-- Settles O49: a turn that passes raises nothing, and one operation raises at most one event. -/
theorem oneStepRaisesAtMostOneEvent : Obligations.OneStepRaisesAtMostOneEvent := by
  unfold Obligations.OneStepRaisesAtMostOneEvent
  intro s t e f h he he' hf hf'
  rcases step_cases h with ht | ⟨i, q, hexec⟩
  · have hsame : t.events = s.events := by rw [ht]; rfl
    rw [hsame, he] at he'
    cases he'
  · exact exec_events_set_unique hexec he he' hf hf'

/-- EVENTS at another value. -/
def State.setEvents (s : State) (ev : BitVec 5) : State := { s with events := ev }

/-- With other EVENTS an emit does the same, CAPERR beside them. -/
theorem setEvents_emitFrame (s : State) (ev : BitVec 5) (n : Nat) :
    (s.setEvents ev).emitFrame n =
      (s.emitFrame n).setEvents (((s.setEvents ev).emitFrame n).events) := by
  simp only [State.emitFrame, tee_eq]
  rfl

/-- XF_DONE with its guard, its effect as one update. -/
theorem exec_xfDone_eq (s : State) :
    exec .xfDone s = .next (if s.xfBusy then s.transformed else s) := by
  split
  · exact exec_xfDone_of_busy ‹_›
  · rw [exec_xfDone, if_neg ‹_›]

/-- A guarded operation whose guard does not read EVENTS and whose effect changes the same with others. -/
theorem exec_setEvents_of_ite {ev ev₁ : BitVec 5} {c : Prop} [Decidable c] {u : State}
    (h : exec i s = .next t) (hs : exec i s = .next (if c then u else s))
    (hev : exec i (s.setEvents ev) = .next (if c then u.setEvents ev₁ else s.setEvents ev)) :
    ∃ ev', exec i (s.setEvents ev) = .next (t.setEvents ev') := by
  cases hs.symm.trans h
  rw [hev]
  split
  · exact ⟨ev₁, rfl⟩
  · exact ⟨ev, rfl⟩

/-- Every operation but RD_EVENTS does the same whatever EVENTS holds, EVENTS itself apart: no guard
reads it, and an event sets its bit beside the others. -/
theorem exec_setEvents (ev : BitVec 5) (h : exec i s = .next t) (hread : i ≠ .rdEvents) :
    ∃ ev', exec i (s.setEvents ev) = .next (t.setEvents ev') := by
  cases i with
  | inData b => exact exec_setEvents_of_ite (ev₁ := ev) h (exec_inData b s) (exec_inData b _)
  | inEos b =>
    exact exec_setEvents_of_ite (ev₁ := ev ||| 0b00010#5) h (exec_inEos b s) (exec_inEos b _)
  | inErr b =>
    exact exec_setEvents_of_ite (ev₁ := ev ||| 0b00010#5) h (exec_inErr b s) (exec_inErr b _)
  | frDrop1 => exact exec_setEvents_of_ite (ev₁ := ev ||| 0b10000#5) h (exec_frDrop1 s) (exec_frDrop1 _)
  | frDrop4 len =>
    exact exec_setEvents_of_ite (ev₁ := ev ||| 0b01000#5) h (exec_frDrop4 len s) (exec_frDrop4 len _)
  | frEmit len =>
    have hev := exec_frEmit len (s.setEvents ev)
    rw [setEvents_emitFrame] at hev
    exact exec_setEvents_of_ite h (exec_frEmit len s) hev
  | xfDone =>
    exact exec_setEvents_of_ite (ev₁ := ev ||| 0b00001#5) h (exec_xfDone_eq s) (exec_xfDone_eq _)
  | wrCtrl v =>
    cases h
    rw [writeCtrl_eq_update]
    exact ⟨ev, congrArg _ (writeCtrl_eq_update (s.setEvents ev) (ctrlFields v))⟩
  | wrEvents v => cases h; exact ⟨ev &&& ~~~ eventBits v, rfl⟩
  | reset => cases h; exact ⟨0#5, rfl⟩
  | rdEvents => exact absurd rfl hread
  | busBad sel v l => cases h
  | _ => cases h; exact ⟨ev, rfl⟩

/-- Settles O55: EVENTS at another value is an update that every operation but RD_EVENTS carries along. -/
theorem eventsDecideNothing : Obligations.EventsDecideNothing := by
  unfold Obligations.EventsDecideNothing
  exact fun _ _ _ ev h hread => exec_setEvents ev h hread

/-! ### Quiescence with the port closed (R236) -/

/-- Settles O54: a closed port takes no beat and a wait is no decision that acts; what is left changes
neither BUF, nor the ceiling, nor CTRL. -/
theorem quiescenceIsStableWithIngressClosed : Obligations.QuiescenceIsStableWithIngressClosed := by
  unfold Obligations.QuiescenceIsStableWithIngressClosed
  intro i s t hq hen h hceil hctrl hreset
  induction h using exec_next_cases with
  | inData b _ hready => simp [((dataReady_iff s).1 hready).1] at hen
  | inEos b _ hready => simp [((closeReady_iff s).1 hready).1] at hen
  | inErr b _ hready => simp [((closeReady_iff s).1 hready).1] at hen
  | frDrop1 _ hd => simp [State.quiescent, hd, FrDecision.isWait] at hq
  | frDrop4 len _ hd => simp [State.quiescent, hd, FrDecision.isWait] at hq
  | frEmit len _ hd => simp [State.quiescent, hd, FrDecision.isWait] at hq
  | wrCtrl v => exact absurd rfl (hctrl v)
  | wrMaxPayload v => exact absurd rfl (hceil v)
  | reset => exact absurd rfl hreset
  | _ => simp [State.decision]

/-! ### The waits (R112, R115) -/

/-- Settles O17: the two waits answer the same state. -/
theorem framerWaitsChangeNothing : Obligations.FramerWaitsChangeNothing := by
  unfold Obligations.FramerWaitsChangeNothing
  exact fun _ _ => ⟨rfl, rfl⟩

/-! ### Reset (R48, R230) -/

/-- Settles O56: RESET answers the reset table, whose computed outputs read as the table says. -/
theorem resetRestoresEveryPiece : Obligations.ResetRestoresEveryPiece := by
  unfold Obligations.ResetRestoresEveryPiece
  intro s
  have hstatus : (State.resetWith s.params s.port).statusWord = State.reset.statusWord := rfl
  exact ⟨rfl, hstatus.trans (by decide), by simp [State.irq], rfl⟩

/-- Settles O57: of the map's words after reset only STATUS, MAGIC and MAX_PAYLOAD are not 0. -/
theorem registersReadTheirResetValues : Obligations.RegistersReadTheirResetValues := by
  unfold Obligations.RegistersReadTheirResetValues
  refine ⟨by decide, by decide, by decide, fun addr _ hstatus hmagic hceil => ?_⟩
  simp only [State.memRead, if_neg (mt eq_ofNat_of_toNat_eq hstatus),
    if_neg (mt eq_ofNat_of_toNat_eq hmagic), if_neg (mt eq_ofNat_of_toNat_eq hceil)]
  have hbin : ∀ k high, State.reset.viewBin k high = 0#32 := fun k => viewBin_of_le (Nat.zero_le k)
  refine iteInduction (motive := (· = 0#32)) (fun _ => hbin _ _) fun _ => ?_
  iterate 16 refine iteInduction (motive := (· = 0#32)) (fun _ => rfl) fun _ => ?_
  rfl

end Sys2Proof.Machine


/-! PROOFS. The other family, the framer: what its steps take off BUF, that it stops and FSE settles, and which heads of BUF a quiescent framer cannot hold. -/

namespace Sys2Proof.Machine

variable {s t : State}

/-! ### The framer alone (R117) -/

/-- An enabled framer takes 1, 4 or 8 + len bytes. -/
theorem consumes_of_enabled (hen : s.frmEnabled = true) :
    s.decision.consumes = 1 ∨ s.decision.consumes = 4 ∨
      ∃ len : Word, s.decision = .emit len ∧ s.decision.consumes = 8 + len.toNat := by
  rcases (frmEnabled_iff s).1 hen with hd | ⟨len, hd⟩ | ⟨⟨len, hd⟩, -⟩
  · exact .inl (by rw [hd]; rfl)
  · exact .inr (.inl (by rw [hd]; rfl))
  · exact .inr (.inr ⟨len, hd, by rw [hd]; rfl⟩)

theorem consumes_pos (hen : s.frmEnabled = true) : 0 < s.decision.consumes := by
  rcases consumes_of_enabled hen with h | h | ⟨len, -, h⟩ <;> omega

/-- Settles O23: an enabled decision takes its bytes off BUF, and no decision takes more than BUF holds. -/
theorem framerStepRemovesBytes : Obligations.FramerStepRemovesBytes := by
  unfold Obligations.FramerStepRemovesBytes
  refine fun s => ⟨fun hen => ?_, exec_decision_of_not_enabled⟩
  obtain ⟨t, ht, hbuf, -⟩ := exec_decision_of_enabled hen
  exact ⟨t, _, ht, hbuf, consumes_decision_le s, consumes_of_enabled hen⟩

/-- A framer without an enabled step is quiescent or held. -/
theorem frmEnabled_eq_false_iff (s : State) :
    s.frmEnabled = false ↔ s.quiescent = true ∨ s.held = true := by
  rw [State.frmEnabled]
  cases s.quiescent <;> simp

theorem frmMove_of_exec (h : exec s.decision.toInstr s = .next t) : s.frmMove = t := by
  rw [State.frmMove, h]

/-- Settles O24: by induction on |BUF|, which each enabled turn lowers. -/
theorem framerStopsWithinBufLength : Obligations.FramerStopsWithinBufLength := by
  unfold Obligations.FramerStopsWithinBufLength
  intro s
  induction hlen : s.buf.length using Nat.strong_induction_on generalizing s with
  | _ k ih =>
    cases hen : s.frmEnabled with
    | false => exact ⟨0, Nat.zero_le k, (frmEnabled_eq_false_iff s).1 hen⟩
    | true =>
      obtain ⟨t, ht, hbuf, -⟩ := exec_decision_of_enabled hen
      have hpos := consumes_pos hen
      have hle := consumes_decision_le s
      have hshort : t.buf.length < k := by
        rw [hbuf, List.length_drop]
        omega
      obtain ⟨n, hn, hstop⟩ := ih _ hshort t rfl
      refine ⟨n + 1, by omega, ?_⟩
      rwa [State.frmRun, frmMove_of_exec ht]

/-! ### Heads of BUF that are not quiescent (R123, R126) -/

/-- Settles O25: a full BUF holds a header, and the longest payload the ceiling admits. -/
theorem fullBufferIsNotQuiescent : Obligations.FullBufferIsNotQuiescent := by
  unfold Obligations.FullBufferIsNotQuiescent
  intro s hceil hfull
  have hcap : s.params.bufCap = 8 + s.params.maxPayloadHw.toNat := rfl
  rw [Bool.eq_false_iff, ne_eq, quiescent_iff]
  rintro (hd | ⟨len, hd⟩)
  · have := frDecide_waitHdr_iff.1 hd
    omega
  · obtain ⟨-, -, -, hlen, hshort⟩ := frDecide_waitPay_iff.1 hd
    omega

/-- Four wire bytes read back as the integer they were written from (R71, R11). -/
theorem u32le_u32Bytes (v : Word) (rest : List Byte) : u32le (u32Bytes v ++ rest) 0 = v := by
  simp only [u32le, u32Bytes, List.cons_append, List.nil_append, Nat.zero_add, List.getD_cons_succ,
    List.getD_cons_zero]
  rw [BitVec.extractLsb'_append_extractLsb'_eq_extractLsb' (by decide),
    BitVec.extractLsb'_append_extractLsb'_eq_extractLsb' (by decide),
    BitVec.extractLsb'_append_extractLsb'_eq_extractLsb' (by decide)]
  exact BitVec.extractLsb'_eq_self

/-- The field behind a first one. -/
theorem u32le_u32Bytes_append (v : Word) (rest : List Byte) :
    u32le (u32Bytes v ++ rest) 4 = u32le rest 0 := rfl

theorem frameBytes_length (magic : Word) (payload : List Byte) :
    (frameBytes magic payload).length = 8 + payload.length := by
  simp [frameBytes, u32Bytes]
  omega

/-- A length within a ceiling is the number of its wire integer. -/
theorem toNat_ofNat_of_le {n : Nat} {c : Word} (h : n ≤ c.toNat) : (BitVec.ofNat 32 n).toNat = n :=
  Nat.mod_eq_of_lt (h.trans_lt c.isLt)

/-- The framer decides to emit a complete frame within the ceiling at the head of BUF. -/
theorem decision_of_frame {payload rest : List Byte} (hle : payload.length ≤ s.maxPayload.toNat)
    (hbuf : s.buf = frameBytes s.params.magic payload ++ rest) :
    s.decision = .emit (BitVec.ofNat 32 payload.length) := by
  have hlen := toNat_ofNat_of_le hle
  refine frDecide_emit_iff.2 ⟨?_, ?_, by rwa [hlen], ?_⟩
  · rw [hbuf, frameBytes, List.append_assoc, List.append_assoc, u32le_u32Bytes]
  · rw [hbuf, frameBytes, List.append_assoc, List.append_assoc, u32le_u32Bytes_append, u32le_u32Bytes]
  · rw [hbuf, hlen, List.length_append, frameBytes_length]
    omega

/-- Settles O26: such a head is decided FR_EMIT, which is no wait. -/
theorem quiescentHeadHoldsNoFrame : Obligations.QuiescentHeadHoldsNoFrame := by
  unfold Obligations.QuiescentHeadHoldsNoFrame
  intro s payload rest hle hbuf
  rw [State.quiescent, decision_of_frame hle hbuf]
  rfl

/-! ### FSE settles (R224) -/

/-- What is left to do without further input: each buffered byte counts two, so that an emit, which
makes the engine busy, lowers it too. -/
def State.work (s : State) : Nat := 2 * s.buf.length + s.xfBusy.toNat

theorem work_transformed_lt (hbusy : s.xfBusy = true) : s.transformed.work < s.work := by
  simp [State.work, State.transformed, hbusy]

theorem work_exec_decision_lt (hen : s.frmEnabled = true) (h : exec s.decision.toInstr s = .next t) :
    t.work < s.work := by
  obtain ⟨u, hu, hbuf, -⟩ := exec_decision_of_enabled hen
  cases hu.symm.trans h
  have hpos := consumes_pos hen
  have hle := consumes_decision_le s
  have hbusy := t.xfBusy.toNat_le
  rw [State.work, State.work, hbuf, List.length_drop]
  rcases exec_decision_cases hen h with ⟨-, rfl⟩ | ⟨len, -, rfl⟩ | ⟨len, hd, -, -⟩
  · simp
    omega
  · simp
    omega
  · simp only [hd, FrDecision.consumes] at *
    omega

theorem exec_decision_ctrl (hen : s.frmEnabled = true) (h : exec s.decision.toInstr s = .next t) :
    t.ctrl = s.ctrl := by
  rcases exec_decision_cases hen h with ⟨-, rfl⟩ | ⟨len, -, rfl⟩ | ⟨len, -, -, rfl⟩ <;> simp

/-- A state that is not settled makes a move that lowers the work and keeps CTRL. -/
theorem exists_dataMove_of_not_settled (h : s.settled = false) :
    ∃ t, (∀ rest, DataMove (s, rest) (t, rest)) ∧ t.work < s.work ∧ t.ctrl = s.ctrl := by
  cases hbusy : s.xfBusy with
  | true => exact ⟨s.transformed, fun _ => dataMove_xf hbusy, work_transformed_lt hbusy, rfl⟩
  | false =>
    have hen : s.frmEnabled = true := by simpa [State.settled, hbusy] using h
    obtain ⟨t, ht, -⟩ := exec_decision_of_enabled hen
    exact ⟨t, fun _ => .frm hen ht, work_exec_decision_lt hen ht, exec_decision_ctrl hen ht⟩

/-- From every state a settled one is reached without further input, with CTRL as it was. -/
theorem exists_settlesAt (s : State) : ∃ t, SettlesAt s [] t ∧ t.ctrl = s.ctrl := by
  induction hwork : s.work using Nat.strong_induction_on generalizing s with
  | _ k ih =>
    cases hset : s.settled with
    | true => exact ⟨s, ⟨.refl, hset⟩, rfl⟩
    | false =>
      obtain ⟨u, hmove, hlt, hctrl⟩ := exists_dataMove_of_not_settled hset
      obtain ⟨t, ⟨hrun, ht⟩, htctrl⟩ := ih _ (hwork ▸ hlt) u rfl
      exact ⟨t, ⟨.head (hmove []) hrun, ht⟩, htctrl.trans hctrl⟩

/-- A settled framer whose capture port is not in use is not held. -/
theorem quiescent_of_settled (h : s.settled = true) (hcap : s.ctrl.capEn = false) :
    s.quiescent = true := by
  obtain ⟨hfrm, hidle⟩ := (settled_iff s).1 h
  have hready : s.emitReady = true := (emitReady_iff s).2 ⟨hidle, .inl hcap⟩
  rcases (frmEnabled_eq_false_iff s).1 hfrm with hq | hheld
  · exact hq
  · simp [State.held, hready] at hheld

/-- Settles O29: at a settled end the engine is idle, and with CAP_EN = 0 nothing holds an emit. -/
theorem fseSettles : Obligations.FseSettles := by
  unfold Obligations.FseSettles
  intro s
  obtain ⟨t, hend, hctrl⟩ := exists_settlesAt s
  have hset := hend.2
  exact ⟨t, hend, ((settled_iff t).1 hset).2, fun hcap => quiescent_of_settled hset (hctrl ▸ hcap)⟩

end Sys2Proof.Machine


/-! PROOFS. The other family, endless runs: every agent's free turns recur, a busy engine is served, and without input the work left goes down until FSE is settled. -/

namespace Sys2Proof

namespace Machine

variable {s t : State} {i : Instr}

/-! ### The step of FSE's own agents, in any turn -/

theorem step_frm (hagent : s.nextTurn.agent = .frm) :
    step s = exec s.beginTurn.decision.toInstr s.beginTurn := by
  have hword : s.beginTurn.portWord s.nextTurn.agent =
      some (.window s.beginTurn.buf.length (headerWindow s.beginTurn.buf)) := by rw [hagent]; rfl
  rw [step_of_decode hword rfl, decodeWindow_headerWindow, hagent]
  rfl

theorem step_xf (hagent : s.nextTurn.agent = .xf) (hbusy : s.xfBusy = true) :
    step s = .next s.beginTurn.transformed := by
  have hword : s.beginTurn.portWord s.nextTurn.agent = some .engine := by
    simp [hagent, State.portWord, hbusy]
  rw [step_of_decode hword rfl, hagent]
  exact exec_xfDone_of_busy (s := s.beginTurn) hbusy

theorem step_rst (hagent : s.nextTurn.agent = .rst) :
    step s = .next (State.resetWith s.params s.beginTurn.port) := by
  have hword : s.beginTurn.portWord s.nextTurn.agent = some .rst := by rw [hagent]; rfl
  rw [step_of_decode hword rfl, hagent]
  rfl

/-- What the ingress port, the host and the framer present names neither the engine's operation nor
RESET: a beat and an access encode back to their own port. -/
theorem decode_ne_xfDone_ne_reset {a : Agent} {w : PortWord} (hw : s.portWord a = some w)
    (hi : decode s.frameCtx w = .ok i) (hxf : a ≠ .xf) (hrst : a ≠ .rst) :
    i ≠ .xfDone ∧ i ≠ .reset := by
  cases a with
  | ing =>
    obtain ⟨b, -, rfl⟩ := Option.map_eq_some_iff.1 hw
    have hback := encode_of_decodeBeat s.frameCtx hi
    constructor <;> rintro rfl <;> cases hback
  | frm =>
    cases hw
    rw [decode, decodeWindow_headerWindow] at hi
    cases hi
    cases s.decision <;> simp [FrDecision.toInstr]
  | xf => exact absurd rfl hxf
  | host =>
    obtain ⟨a, -, rfl⟩ := Option.map_eq_some_iff.1 hw
    cases hi
    obtain ⟨a', hback, -⟩ := encode_decodeAccess s.frameCtx a
    constructor <;> intro h <;> rw [h] at hback <;> cases hback
  | rst => exact absurd rfl hrst

/-! ### A busy engine stays busy until its own step or reset -/

theorem exec_xfBusy (h : exec i s = .next t) (hxf : i ≠ .xfDone) (hreset : i ≠ .reset)
    (hbusy : s.xfBusy = true) : t.xfBusy = true := by
  induction h using exec_next_cases with
  | xfDone => exact absurd rfl hxf
  | reset => exact absurd rfl hreset
  | _ => simp [hbusy]

theorem step_xfBusy (h : step s = .next t) (hxf : s.nextTurn.agent ≠ .xf)
    (hrst : s.nextTurn.agent ≠ .rst) (hbusy : s.xfBusy = true) : t.xfBusy = true := by
  cases hw : s.beginTurn.portWord s.nextTurn.agent with
  | none =>
    cases (step_of_idle hw).symm.trans h
    exact hbusy
  | some w =>
    cases hi : decode s.beginTurn.frameCtx w with
    | error e => cases (step_of_decode_error hw hi).symm.trans h
    | ok i =>
      rw [step_of_decode hw hi] at h
      obtain ⟨hne, hne'⟩ := decode_ne_xfDone_ne_reset hw hi hxf hrst
      refine exec_xfBusy h hne hne' ?_
      rw [handshake_eq_withPort]
      exact hbusy

/-! ### Turns recur (R223) -/

section
variable {run : Nat → State} (hrun : IsRun run)
include hrun

/-- A run uses its schedule up. -/
theorem exists_sched_nil (n : Nat) : ∃ m, n ≤ m ∧ (run m).port.sched = [] := by
  induction hsched : (run n).port.sched generalizing n with
  | nil => exact ⟨n, le_rfl, hsched⟩
  | cons turn rest ih =>
    have htail : (run (n + 1)).port.sched = rest := by rw [(step_sched (hrun n)).1, hsched]; rfl
    obtain ⟨m, hm, hnil⟩ := ih (n + 1) htail
    exact ⟨m, by omega, hnil⟩

/-- From there on it takes the free turns one after another. -/
theorem freeTurn_of_sched_nil {n : Nat} (hnil : (run n).port.sched = []) (j : Nat) :
    (run (n + j)).port.sched = [] ∧ (run (n + j)).port.freeIdx = (run n).port.freeIdx + j := by
  induction j with
  | zero => exact ⟨hnil, rfl⟩
  | succ j ih =>
    obtain ⟨hsched, hidx⟩ := ih
    obtain ⟨hsched', hidx'⟩ := step_sched (hrun (n + j))
    rw [hsched] at hsched'
    rw [if_pos hsched, hidx] at hidx'
    exact ⟨hsched', hidx'⟩

/-- An agent whose free turn recurs has a turn after every point of a run. -/
theorem exists_turn {a : Agent} (hrecurs : ∀ n, ∃ m, n ≤ m ∧ (Config.freeTurn m).agent = a) (n : Nat) :
    ∃ m, n ≤ m ∧ (run m).nextTurn.agent = a := by
  obtain ⟨k, hk, hnil⟩ := exists_sched_nil hrun n
  obtain ⟨m, hm, hagent⟩ := hrecurs (run k).port.freeIdx
  obtain ⟨j, rfl⟩ := Nat.exists_eq_add_of_le hm
  obtain ⟨hsched, hidx⟩ := freeTurn_of_sched_nil hrun hnil j
  refine ⟨k + j, by omega, ?_⟩
  rw [State.nextTurn, hsched, hidx]
  exact hagent

theorem exists_frm_turn (n : Nat) : ∃ m, n ≤ m ∧ (run m).nextTurn.agent = .frm :=
  exists_turn hrun Config.fairTurns.frm_recurs n

theorem exists_xf_turn (n : Nat) : ∃ m, n ≤ m ∧ (run m).nextTurn.agent = .xf :=
  exists_turn hrun Config.fairTurns.xf_recurs n

/-- A busy engine takes its step unless a reset comes first: it stays busy up to its turn. -/
theorem busy_engine_served (n : Nat) (hbusy : (run n).xfBusy = true) :
    ∃ m, n ≤ m ∧ ((run m).agentTakes .xf ∨ (run m).nextTurn.agent = .rst) := by
  obtain ⟨m, hm, hxf⟩ := exists_xf_turn hrun n
  obtain ⟨d, rfl⟩ := Nat.exists_eq_add_of_le hm
  clear hm
  induction d generalizing n with
  | zero => exact ⟨n, le_rfl, .inl ⟨hxf, hbusy⟩⟩
  | succ d ih =>
    by_cases hturn : (run n).nextTurn.agent = .xf
    · exact ⟨n, le_rfl, .inl ⟨hturn, hbusy⟩⟩
    by_cases hrst : (run n).nextTurn.agent = .rst
    · exact ⟨n, le_rfl, .inr hrst⟩
    have hnext := step_xfBusy (hrun n) hturn hrst hbusy
    obtain ⟨m, hm, hserved⟩ := ih (n + 1) hnext (by rwa [Nat.succ_add_eq_add_succ])
    exact ⟨m, by omega, hserved⟩

end

/-! ### A run without input settles (R117, R224) -/

/-- Nothing is offered and nothing issued. -/
def State.NoInput (s : State) : Prop := s.port.inQueue = [] ∧ s.port.busQueue = []

theorem step_noInput (hs : s.NoInput) (h : step s = .next t) : t.NoInput := by
  obtain ⟨u, hu, hin, hbus⟩ := step_of_no_input hs.1 hs.2
  cases hu.symm.trans h
  exact ⟨hin, hbus⟩

/-- The state after reset is settled: BUF is empty and the engine idle. -/
theorem settled_resetWith (p : Params) (q : Ports) : (State.resetWith p q).settled = true := rfl

/-- What a step without input does: the turn passes, or an agent of FSE takes its enabled step, or reset
comes. -/
theorem step_noInput_cases (hs : s.NoInput) (h : step s = .next t) :
    t = s.beginTurn ∨
    (s.beginTurn.frmEnabled = true ∧ exec s.beginTurn.decision.toInstr s.beginTurn = .next t) ∨
    (s.xfBusy = true ∧ t = s.beginTurn.transformed) ∨
    t = State.resetWith s.params s.beginTurn.port := by
  obtain ⟨hin, hbus⟩ := hs
  have passes (hidle : s.portWord s.nextTurn.agent = none) : t = s.beginTurn := by
    cases (step_of_idle ((beginTurn_portWord _ _).trans hidle)).symm.trans h
    rfl
  cases hagent : s.nextTurn.agent with
  | ing => exact .inl (passes (by simp [hagent, State.portWord, hin]))
  | host => exact .inl (passes (by simp [hagent, State.portWord, hbus]))
  | frm =>
    rw [step_frm hagent] at h
    cases hen : s.beginTurn.frmEnabled with
    | true => exact .inr (.inl ⟨rfl, h⟩)
    | false =>
      cases (exec_decision_of_not_enabled hen).symm.trans h
      exact .inl rfl
  | xf =>
    cases hbusy : s.xfBusy with
    | true =>
      cases (step_xf hagent hbusy).symm.trans h
      exact .inr (.inr (.inl ⟨rfl, rfl⟩))
    | false => exact .inl (passes (by simp [hagent, State.portWord, hbusy]))
  | rst =>
    cases (step_rst hagent).symm.trans h
    exact .inr (.inr (.inr rfl))

/-- Without input a step adds no work. -/
theorem step_work_le (hs : s.NoInput) (h : step s = .next t) : t.work ≤ s.work := by
  rcases step_noInput_cases hs h with rfl | ⟨hen, hexec⟩ | ⟨hbusy, rfl⟩ | rfl
  · exact le_rfl
  · exact (work_exec_decision_lt hen hexec).le
  · exact (work_transformed_lt (s := s.beginTurn) hbusy).le
  · exact Nat.zero_le _

section
variable {run : Nat → State} (hrun : IsRun run) {n : Nat} (hin : (run n).NoInput)
include hrun hin

theorem run_noInput {m : Nat} (hm : n ≤ m) : (run m).NoInput ∧ (run m).work ≤ (run n).work := by
  induction m, hm using Nat.le_induction with
  | base => exact ⟨hin, le_rfl⟩
  | succ m _ ih =>
    obtain ⟨hm, hwork⟩ := ih
    exact ⟨step_noInput hm (hrun m), (step_work_le hm (hrun m)).trans hwork⟩

/-- From a busy engine on, FSE settles or there comes to be less work: the engine is served or reset. -/
theorem run_progress_of_busy (hbusy : (run n).xfBusy = true) :
    ∃ m, n ≤ m ∧ ((run m).settled = true ∨ (run m).work < (run n).work) := by
  obtain ⟨m, hm, ⟨hxf, hbusy'⟩ | hrst⟩ := busy_engine_served hrun n hbusy
  · refine ⟨m + 1, by omega, .inr ?_⟩
    have hle := (run_noInput hrun hin hm).2
    rw [← Host.Outcome.next.inj ((step_xf hxf hbusy').symm.trans (hrun m))]
    exact (work_transformed_lt (s := (run m).beginTurn) hbusy').trans_le hle
  · refine ⟨m + 1, by omega, .inl ?_⟩
    rw [← Host.Outcome.next.inj ((step_rst hrst).symm.trans (hrun m))]
    exact settled_resetWith _ _

/-- From every point on, FSE settles or there comes to be less work: at the framer's next turn a busy
engine is still to be served, or the framer takes its step, or nothing is enabled. -/
theorem run_progress : ∃ m, n ≤ m ∧ ((run m).settled = true ∨ (run m).work < (run n).work) := by
  obtain ⟨m, hm, hfrm⟩ := exists_frm_turn hrun n
  obtain ⟨hmin, hle⟩ := run_noInput hrun hin hm
  cases hbusy : (run m).xfBusy with
  | true =>
    obtain ⟨m', hm', hprog⟩ := run_progress_of_busy hrun hmin hbusy
    exact ⟨m', by omega, hprog.imp_right (·.trans_le hle)⟩
  | false =>
    have hstep := (step_frm hfrm).symm.trans (hrun m)
    refine ⟨m + 1, by omega, ?_⟩
    cases hen : (run m).beginTurn.frmEnabled with
    | true => exact .inr ((work_exec_decision_lt hen hstep).trans_le hle)
    | false =>
      rw [← Host.Outcome.next.inj ((exec_decision_of_not_enabled hen).symm.trans hstep)]
      exact .inl ((settled_iff _).2 ⟨hen, hbusy⟩)

/-- Without input every run reaches a settled state: by induction on the work. -/
theorem run_settles : ∃ m, n ≤ m ∧ (run m).settled = true := by
  induction hwork : (run n).work using Nat.strong_induction_on generalizing n with
  | _ k ih =>
    obtain ⟨m, hm, hset | hlt⟩ := run_progress hrun hin
    · exact ⟨m, hm, hset⟩
    · obtain ⟨m', hm', hset⟩ := ih _ (hwork ▸ hlt) (run_noInput hrun hin hm).1 rfl
      exact ⟨m', by omega, hset⟩

end

/-- Settles O60: the turns of the framer and the engine recur, a busy engine stays busy up to its turn,
and without input the work left falls until nothing is enabled. -/
theorem everyRunIsFairAndSettles : Obligations.EveryRunIsFairAndSettles := by
  unfold Obligations.EveryRunIsFairAndSettles
  intro run hrun
  refine ⟨fun n hen => ?_, fun n hen => ?_, busy_engine_served hrun,
    fun n hin hbus => run_settles hrun ⟨hin, hbus⟩⟩
  · obtain ⟨m, hm, hfrm⟩ := exists_frm_turn hrun n
    exact ⟨m, hm, hfrm, hen m hm⟩
  · obtain ⟨m, hm, hxf⟩ := exists_xf_turn hrun n
    exact ⟨m, hm, hxf, hen m hm⟩

end Machine

end Sys2Proof


/-! PROOFS. The other family, the transform: P1 to P3 through XF_DONE, a trailing odd byte, the decibel range, and the exact bins of the small sizes. -/

namespace Sys2Proof.Machine

variable {s : State} {payload : List Byte}

/-! ### The published bins (R134, R137) -/

/-- XF_DONE of a busy engine publishes the bins of the payload in XF_IN. -/
theorem exec_xfDone_bins (hbusy : s.xfBusy = true) (hin : s.xfIn = some payload) :
    ∃ t, exec .xfDone s = .next t ∧ t.pub.bins = spectrumBins s.params payload := by
  refine ⟨s.transformed, exec_xfDone_of_busy hbusy, ?_⟩
  rw [exec_xfDone_pub hbusy hin (exec_xfDone_of_busy hbusy)]

/-- A payload a legal build can hold has at most 32768 samples (R8). -/
theorem samples_length_le {p : Params} (hp : p.Legal) (hle : payload.length ≤ p.maxPayloadHw.toNat) :
    (samples payload).length ≤ 32768 := by
  have hmax := hp.maxPayloadHw_le
  rw [samples_length]
  omega

/-- The bins of the all-zero vector are the one word P2 names. -/
theorem spectrumBins_of_allZero (p : Params) (h : ∀ x ∈ samples payload, x = ⟨0, 0⟩) :
    spectrumBins p payload = List.replicate (payload.length / 2) p.epsWord := by
  rw [spectrumBins_eq_map, List.eq_replicate_iff]
  refine ⟨by simp, fun w hw => ?_⟩
  obtain ⟨k, -, rfl⟩ := List.mem_map.1 hw
  exact dbNum_of_allZero h

/-- Settles O34: the bins are a function of the build and the samples (P1); the all-zero vector gives the
build's word (P2); every bin is finite and accurate (P3). -/
theorem dbNumHasItsThreeProperties : Obligations.DbNumHasItsThreeProperties := by
  unfold Obligations.DbNumHasItsThreeProperties
  refine ⟨fun s₁ s₂ t₁ t₂ p₁ p₂ hparams hb₁ hb₂ hin₁ hin₂ hsame h₁ h₂ => ?_,
    fun s payload hlegal hbusy hin hzero => ?_, fun s payload hlegal hbusy hin hle => ?_⟩
  · rw [exec_xfDone_pub hb₁ hin₁ h₁, exec_xfDone_pub hb₂ hin₂ h₂]
    simp only [spectrumBins, hparams, hsame]
  · obtain ⟨t, ht, hbins⟩ := exec_xfDone_bins hbusy hin
    exact ⟨t, s.params.epsWord, ht, hbins.trans (spectrumBins_of_allZero _ hzero),
      hlegal.epsWord_nearest, fun hdefault => by rw [hdefault]⟩
  · obtain ⟨t, ht, hbins⟩ := exec_xfDone_bins hbusy hin
    refine ⟨t, ht, fun k w d hk hw hd => ?_⟩
    rw [hbins, spectrumBins_getElem? _ _ _ hk] at hw
    cases hw
    exact ⟨dbNum_finite hlegal _ _, dbNum_accurate hlegal (samples_length_le hlegal hle)
      (samples_inRange payload) (by rwa [samples_length]) hd⟩

/-- Settles O35: the odd byte forms no sample and no pair, so the two published records agree. -/
theorem oddByteDoesNotChangeTheSpectrum : Obligations.OddByteDoesNotChangeTheSpectrum := by
  unfold Obligations.OddByteDoesNotChangeTheSpectrum
  intro s payload b heven hbusy
  have hhalf : (payload.length + 1) / 2 = payload.length / 2 := by omega
  have hodd : (payload.length + 1) % 2 = 1 := by omega
  have hbins : spectrumBins s.params (payload ++ [b]) = spectrumBins s.params payload := by
    rw [spectrumBins, spectrumBins, samples_append_odd payload b heven]
  refine ⟨_, _, exec_xfDone_of_busy (s := { s with xfIn := some payload }) hbusy,
    exec_xfDone_of_busy (s := { s with xfIn := some (payload ++ [b]) }) hbusy, ?_, ?_⟩
  · simp [State.transformed, State.xfPayload, heven]
  · simp [State.transformed, State.xfPayload, State.nextSpectrum, heven, hodd, hbins, hhalf]

/-! ### The decibel range (R133, R140) -/

/-- The modulus of a Gaussian integer. -/
theorem norm_gaussian (re im : ℤ) :
    ‖(re : ℂ) + Complex.I * (im : ℂ)‖ = Real.sqrt ((re ^ 2 + im ^ 2 : ℤ) : ℝ) := by
  rw [Complex.norm_def, Complex.normSq_apply]
  simp [pow_two]

/-- A sample's modulus is at most 128·√2, here bounded by 181.02. -/
theorem norm_sample_le {x : Sample} (hx : x.InRange) :
    ‖((x.re : ℂ) + Complex.I * (x.im : ℂ))‖ ≤ 181.02 := by
  obtain ⟨hr, hr', hi, hi'⟩ := hx
  have hsq : x.re ^ 2 + x.im ^ 2 ≤ 32768 := by nlinarith
  have hsq' : ((x.re ^ 2 + x.im ^ 2 : ℤ) : ℝ) ≤ 32768 := by exact_mod_cast hsq
  rw [norm_gaussian, Real.sqrt_le_left (by norm_num)]
  exact hsq'.trans (by norm_num)

/-- X[k] of R132: the unnormalised forward DFT of the sample vector. -/
noncomputable def dftSum (x : List Sample) (k : Nat) : ℂ :=
  ∑ n ∈ Finset.range x.length,
    (((x.getD n ⟨0, 0⟩).re : ℂ) + Complex.I * ((x.getD n ⟨0, 0⟩).im : ℂ)) *
      Complex.exp (((-2 * Real.pi * k * n / x.length : ℝ) : ℂ) * Complex.I)

theorem isExactDb_iff (eps : ℝ) (x : List Sample) (k : Nat) (d : ℝ) :
    IsExactDb eps x k d ↔ d = 20 * Real.logb 10 (‖dftSum x k‖ + eps) := Iff.rfl

/-- No bin of a vector of samples is longer than the samples together. -/
theorem norm_dftSum_le {x : List Sample} (hx : ∀ a ∈ x, a.InRange) (k : Nat) :
    ‖dftSum x k‖ ≤ x.length * 181.02 := by
  refine (norm_sum_le _ _).trans ((Finset.sum_le_card_nsmul _ _ 181.02 fun n hn => ?_).trans ?_)
  · have hmem : x.getD n ⟨0, 0⟩ ∈ x := by simp [List.getD, Finset.mem_range.1 hn]
    rw [norm_mul, Complex.norm_exp_ofReal_mul_I, mul_one]
    exact norm_sample_le (hx _ hmem)
  · simp

/-- The exact value of a bin of a vector that a legal build can hold lies in -120..135.5 (R140). -/
theorem exactDb_mem_range {x : List Sample} (hx : ∀ a ∈ x, a.InRange) (hlen : x.length ≤ 32768)
    {k : Nat} {d : ℝ} (hd : IsExactDb (1 / 1000000) x k d) : -120 ≤ d ∧ d ≤ 135.5 := by
  rw [isExactDb_iff] at hd
  have hnonneg := norm_nonneg (dftSum x k)
  have hlen' : (x.length : ℝ) ≤ 32768 := by exact_mod_cast hlen
  have hnorm := norm_dftSum_le hx k
  generalize ‖dftSum x k‖ = a at *
  have hpos : 0 < a + 1 / 1000000 := by positivity
  have hlow : Real.logb 10 (1 / 1000000) ≤ Real.logb 10 (a + 1 / 1000000) :=
    Real.logb_le_logb_of_le (by norm_num) (by norm_num) (by linarith)
  have hlow' : 20 * Real.logb 10 (1 / 1000000) = -120 := by rw [← eps_value_default, logb_default]
  have hhigh : Real.logb 10 ((a + 1 / 1000000) ^ 31) ≤ Real.logb 10 (10 ^ 210) := by
    refine Real.logb_le_logb_of_le (by norm_num) (by positivity) ?_
    calc (a + 1 / 1000000) ^ 31 ≤ 5931664 ^ 31 := by gcongr; linarith
      _ ≤ 10 ^ 210 := by norm_num
  rw [Real.logb_pow, Real.logb_pow, Real.logb_self_eq_one (by norm_num)] at hhigh
  push_cast at hhigh
  constructor <;> linarith

/-- Settles O36: each published bin is within TOL_DB of an exact value in that range. -/
theorem binsLieInTheDecibelRange : Obligations.BinsLieInTheDecibelRange := by
  unfold Obligations.BinsLieInTheDecibelRange
  intro s payload hlegal heps hbusy hin hle
  obtain ⟨t, ht, hbins⟩ := exec_xfDone_bins hbusy hin
  refine ⟨t, ht, fun w hw => ?_⟩
  rw [hbins, spectrumBins] at hw
  obtain ⟨k, hk, rfl⟩ := List.mem_map.1 hw
  have hlen := samples_length_le hlegal hle
  have hrange := samples_inRange payload
  obtain ⟨d, hd⟩ : ∃ d, IsExactDb s.params.eps.value (samples payload) k d := ⟨_, rfl⟩
  have hacc := abs_le.1 (dbNum_accurate hlegal hlen hrange (List.mem_range.1 hk) hd)
  rw [heps] at hd
  obtain ⟨hlow, hhigh⟩ := exactDb_mem_range hrange hlen hd
  constructor <;> linarith

/-! ### The exact small sizes (R141) -/

/-- X[k] by the powers of the vector's root of unity. -/
theorem dftSum_eq_sum_pow {x : List Sample} {N : ℕ} (hN : x.length = N) {w : ℂ}
    (hw : Complex.exp (((-2 * Real.pi / N : ℝ) : ℂ) * Complex.I) = w) (k : Nat) :
    dftSum x k = ∑ n ∈ Finset.range N,
      (((x.getD n ⟨0, 0⟩).re : ℂ) + Complex.I * ((x.getD n ⟨0, 0⟩).im : ℂ)) * w ^ (k * n) := by
  subst hN
  refine Finset.sum_congr rfl fun n _ => ?_
  rw [← hw, ← Complex.exp_nat_mul]
  congr 2
  push_cast
  ring

theorem root_one : Complex.exp (((-2 * Real.pi / (1 : ℕ) : ℝ) : ℂ) * Complex.I) = 1 := by
  rw [show (((-2 * Real.pi / (1 : ℕ) : ℝ) : ℂ) * Complex.I) = -(2 * Real.pi * Complex.I) by
    push_cast; ring,
    Complex.exp_neg, Complex.exp_two_pi_mul_I, inv_one]

theorem root_two : Complex.exp (((-2 * Real.pi / (2 : ℕ) : ℝ) : ℂ) * Complex.I) = -1 := by
  rw [show (((-2 * Real.pi / (2 : ℕ) : ℝ) : ℂ) * Complex.I) = -(Real.pi * Complex.I) by
    push_cast; ring,
    Complex.exp_neg, Complex.exp_pi_mul_I, inv_neg_one]

theorem root_four : Complex.exp (((-2 * Real.pi / (4 : ℕ) : ℝ) : ℂ) * Complex.I) = -Complex.I := by
  rw [show (((-2 * Real.pi / (4 : ℕ) : ℝ) : ℂ) * Complex.I) = -Real.pi / 2 * Complex.I by
    push_cast; ring]
  exact Complex.exp_neg_pi_div_two_mul_I

/-- A bin whose X[k] is a Gaussian integer is exact in its squared modulus. -/
theorem isExactDb_of_dftSum {eps d : ℝ} {x : List Sample} {k : Nat} {re im : ℤ}
    (h : dftSum x k = (re : ℂ) + Complex.I * (im : ℂ)) :
    IsExactDb eps x k d ↔
      d = 20 * Real.logb 10 (Real.sqrt ((re ^ 2 + im ^ 2 : ℤ) : ℝ) + eps) := by
  rw [isExactDb_iff, h, norm_gaussian]

/-- A sample as a complex number. -/
def toComplex (x : Sample) : ℂ := (x.re : ℂ) + Complex.I * (x.im : ℂ)

theorem dftSum_one (a : Sample) : dftSum [a] 0 = toComplex a := by
  rw [dftSum_eq_sum_pow (x := [a]) rfl root_one]
  simp [toComplex]

theorem dftSum_two (a b : Sample) (k : Nat) :
    dftSum [a, b] k = toComplex a + toComplex b * (-1) ^ k := by
  rw [dftSum_eq_sum_pow (x := [a, b]) rfl root_two]
  simp [Finset.sum_range_succ, toComplex]

theorem dftSum_four (a b c e : Sample) (k : Nat) :
    dftSum [a, b, c, e] k = toComplex a + toComplex b * (-Complex.I) ^ k +
      toComplex c * (-Complex.I) ^ (k * 2) + toComplex e * (-Complex.I) ^ (k * 3) := by
  rw [dftSum_eq_sum_pow (x := [a, b, c, e]) rfl root_four]
  simp [Finset.sum_range_succ, toComplex]

/-- Settles O37: the roots of unity of sizes 1, 2 and 4 are 1, -1 and -i, so each X[k] is the Gaussian
integer that is written. -/
theorem smallSizesAreExact : Obligations.SmallSizesAreExact := by
  unfold Obligations.SmallSizesAreExact
  intro eps a b c e d db
  have exact_of {x : List Sample} {k : Nat} {re im : ℤ}
      (h : dftSum x k = (re : ℂ) + Complex.I * (im : ℂ)) : IsExactDb eps x k d ↔ d = db re im :=
    isExactDb_of_dftSum h
  refine ⟨exact_of (dftSum_one a), exact_of ?_, exact_of ?_, exact_of ?_, exact_of ?_, exact_of ?_,
    exact_of ?_⟩
  · rw [dftSum_two]
    apply Complex.ext <;> simp [toComplex]
  · rw [dftSum_two]
    apply Complex.ext <;> simp [toComplex] <;> ring
  all_goals
    rw [dftSum_four]
    apply Complex.ext <;> simp [toComplex, pow_succ] <;> ring

end Sys2Proof.Machine


/-! PROOFS. The other family, streams: valid frames are all delivered, and garbage before a frame is dropped exactly. -/

namespace Sys2Proof.Machine

variable {s t u : State} {payload : List Byte}

/-! ### Bytes received (R100) -/

/-- The state after `bs` were appended, one beat for each. -/
def State.received (s : State) (bs : List Byte) : State := { s with
  buf := s.buf ++ bs
  cnt := { s.cnt with bytesIn := s.cnt.bytesIn + BitVec.ofNat 32 bs.length } }

/-- Counting one and then `n` is counting `n + 1`. -/
theorem add_one_add_ofNat (x : Word) (n : Nat) :
    x + 1#32 + BitVec.ofNat 32 n = x + BitVec.ofNat 32 (n + 1) := by
  rw [BitVec.add_assoc, Nat.add_comm n, BitVec.ofNat_add]

theorem received_nil (s : State) : s.received [] = s := by simp [State.received]

theorem received_cons (s : State) (b : Byte) (bs : List Byte) :
    s.received (b :: bs) = (s.appendByte b).received bs := by
  simp [State.received, State.appendByte, add_one_add_ofNat]

/-- An open port takes the bytes that BUF has room for. -/
theorem dataRun_received (hopen : s.ingressOpen = true) {bs : List Byte}
    (hroom : s.buf.length + bs.length ≤ s.params.bufCap) (rest : List Byte) :
    DataRun (s, bs ++ rest) (s.received bs, rest) := by
  induction bs generalizing s with
  | nil =>
    rw [received_nil]
    exact .refl
  | cons b bs ih =>
    rw [List.length_cons] at hroom
    have hready : s.dataReady = true := by
      rw [State.dataReady, hopen, Bool.true_and, decide_eq_true_eq]
      omega
    rw [received_cons]
    refine .head (dataMove_byte hready) (ih hopen ?_)
    rw [appendByte_buf, appendByte_params, List.length_append, List.length_singleton]
    omega

/-! ### One frame delivered (R116, R135) -/

/-- The state after the rest of a frame was received, the frame emitted and its payload transformed. -/
def State.delivered (s : State) (more payload : List Byte) : State :=
  ((s.received more).emitFrame payload.length).transformed

/-- Idle, with the port open and the capture port, if it is in use, ready. -/
structure State.Ready (s : State) : Prop where
  isOpen : s.ingressOpen = true
  emits : s.emitReady = true
  ceiling_le : s.maxPayload.toNat ≤ s.params.maxPayloadHw.toNat

/-- A frame of which BUF holds the beginning is taken, emitted and transformed. -/
theorem dataRun_delivered (hs : s.Ready) (hle : payload.length ≤ s.maxPayload.toNat) {more : List Byte}
    (hframe : s.buf ++ more = frameBytes s.params.magic payload) (rest : List Byte) :
    DataRun (s, more ++ rest) (s.delivered more payload, rest) := by
  have hroom : s.buf.length + more.length ≤ s.params.bufCap := by
    have hlen := congrArg List.length hframe
    have hceil := hs.ceiling_le
    rw [List.length_append, frameBytes_length] at hlen
    rw [hlen, Params.bufCap, Config.hdrLen]
    omega
  have hd : (s.received more).decision = .emit (BitVec.ofNat 32 payload.length) :=
    decision_of_frame (rest := []) hle (hframe.trans (List.append_nil _).symm)
  have hen : (s.received more).frmEnabled = true :=
    (frmEnabled_iff _).2 (.inr (.inr ⟨⟨_, hd⟩, hs.emits⟩))
  have hemit := exec_decision_emit hd hs.emits
  rw [toNat_ofNat_of_le hle] at hemit
  exact (dataRun_received hs.isOpen hroom rest).trans
    (.head (.frm hen hemit) (.single (dataMove_xf (emitFrame_xfBusy _ _))))

theorem payloadOf_frameBytes (magic : Word) (payload : List Byte) :
    payloadOf (frameBytes magic payload) payload.length = payload := by
  simp [payloadOf, frameBytes, u32Bytes, Config.hdrLen]

/-! ### Frames delivered one after another (R120) -/

/-- PUB after the payloads: the record of the last one, if there is one. -/
def State.pubAfter (s : State) (payloads : List (List Byte)) : Spectrum :=
  match payloads.getLast? with
  | none => s.pub
  | some p => ⟨true, s.pub.seq + BitVec.ofNat 32 payloads.length, p.length / 2, spectrumBins s.params p⟩

/-- `t` is `s` after the payloads' frames were delivered: each emitted, transformed and teed, nothing
dropped, BUF empty. -/
structure State.Delivered (s : State) (payloads : List (List Byte)) (t : State) : Prop where
  params : t.params = s.params
  maxPayload : t.maxPayload = s.maxPayload
  ctrl : t.ctrl = s.ctrl
  runState : t.runState = s.runState
  capReady : t.port.capReady = s.port.capReady
  buf : t.buf = []
  xfBusy : t.xfBusy = false
  headPos : t.headPos = s.headPos + (payloads.flatMap (frameBytes s.params.magic)).length
  framesOk : t.cnt.framesOk = s.cnt.framesOk + BitVec.ofNat 32 payloads.length
  spectra : t.cnt.spectra = s.cnt.spectra + BitVec.ofNat 32 payloads.length
  resyncDrops : t.cnt.resyncDrops = s.cnt.resyncDrops
  lenRejects : t.cnt.lenRejects = s.cnt.lenRejects
  pub : t.pub = s.pubAfter payloads
  capLog : t.port.capLog = s.port.capLog ++
    if s.ctrl.capEn then payloads.map (fun p => ⟨p.length, p⟩) else []

/-- One frame delivered: its payload is what the emit cuts out of BUF, and the frame was all that BUF
held. -/
theorem delivered_one {more : List Byte} (hframe : s.buf ++ more = frameBytes s.params.magic payload) :
    s.Delivered [payload] (s.delivered more payload) := by
  have hpayload : payloadOf (s.received more).buf payload.length = payload := by
    rw [State.received, hframe, payloadOf_frameBytes]
  constructor
  case pub =>
    simp [State.delivered, State.transformed, State.nextSpectrum, State.xfPayload, hpayload]
    rfl
  case capLog =>
    refine (congrArg Ports.capLog (emitFrame_port (s.received more) payload.length)).trans ?_
    rw [hpayload]
    change (if s.ctrl.capEn then s.port.capLog ++ [⟨payload.length, payload⟩] else s.port.capLog) = _
    cases s.ctrl.capEn <;> simp
  all_goals
    simp [State.delivered, State.transformed, State.received, emitFrame_cnt, emitFrame_port, hframe,
      frameBytes_length]

theorem pubAfter_cons {p : List Byte} (hparams : u.params = s.params) (hpub : u.pub = s.pubAfter [p])
    (payloads : List (List Byte)) : u.pubAfter payloads = s.pubAfter (p :: payloads) := by
  cases payloads with
  | nil => exact hpub
  | cons q ps =>
    have hseq : u.pub.seq = s.pub.seq + 1#32 := by rw [hpub]; rfl
    simp only [State.pubAfter, List.getLast?_cons, Option.getD_some, hparams, hseq,
      add_one_add_ofNat, List.length_cons]

theorem State.Delivered.cons {p : List Byte} {payloads : List (List Byte)} (h₁ : s.Delivered [p] u)
    (h₂ : u.Delivered payloads t) : s.Delivered (p :: payloads) t where
  params := h₂.params.trans h₁.params
  maxPayload := h₂.maxPayload.trans h₁.maxPayload
  ctrl := h₂.ctrl.trans h₁.ctrl
  runState := h₂.runState.trans h₁.runState
  capReady := h₂.capReady.trans h₁.capReady
  buf := h₂.buf
  xfBusy := h₂.xfBusy
  headPos := by
    rw [h₂.headPos, h₁.headPos, h₁.params]
    simp [Nat.add_assoc]
  framesOk := by
    rw [h₂.framesOk, h₁.framesOk]
    exact add_one_add_ofNat _ _
  spectra := by
    rw [h₂.spectra, h₁.spectra]
    exact add_one_add_ofNat _ _
  resyncDrops := h₂.resyncDrops.trans h₁.resyncDrops
  lenRejects := h₂.lenRejects.trans h₁.lenRejects
  pub := h₂.pub.trans (pubAfter_cons h₁.params h₁.pub payloads)
  capLog := by
    rw [h₂.capLog, h₁.capLog, h₁.ctrl]
    cases s.ctrl.capEn <;> simp

/-- Nothing delivered, at a boundary. -/
theorem delivered_nil (hbuf : s.buf = []) (hidle : s.xfBusy = false) : s.Delivered [] s := by
  constructor <;> simp [hbuf, hidle, State.pubAfter]

theorem State.Ready.of_delivered {payloads : List (List Byte)} (hs : s.Ready)
    (h : s.Delivered payloads t) : t.Ready where
  isOpen := by
    rw [State.ingressOpen, h.ctrl, h.runState]
    exact hs.isOpen
  emits := by
    have hready := ((emitReady_iff s).1 hs.emits).2
    rw [emitReady_iff, h.ctrl, h.capReady]
    exact ⟨h.xfBusy, hready⟩
  ceiling_le := by
    rw [h.maxPayload, h.params]
    exact hs.ceiling_le

theorem ready_of_boundary (hs : s.AtBoundary) (hceil : s.maxPayload.toNat ≤ s.params.maxPayloadHw.toNat) :
    s.Ready := by
  obtain ⟨-, hen, hrun, hidle, hcap⟩ := hs
  refine ⟨by simp [State.ingressOpen, hen, hrun], (emitReady_iff s).2 ⟨hidle, ?_⟩, hceil⟩
  cases h : s.ctrl.capEn with
  | false => exact .inl rfl
  | true => exact .inr (hcap h)

/-- An empty BUF and an idle engine have nothing to do. -/
theorem settled_of_empty (hbuf : s.buf = []) (hidle : s.xfBusy = false) : s.settled = true := by
  have hd : s.decision = .waitHdr := frDecide_waitHdr_iff.2 (by simp [hbuf])
  simp [State.settled, State.frmEnabled, State.quiescent, hd, FrDecision.isWait, hidle]

/-- The frames of a stream are delivered one by one. -/
theorem dataRun_frames {payloads : List (List Byte)} (hs : s.Ready) (hbuf : s.buf = [])
    (hle : ∀ p ∈ payloads, p.length ≤ s.maxPayload.toNat) :
    ∃ t, DataRun (s, payloads.flatMap (frameBytes s.params.magic)) (t, []) ∧ s.Delivered payloads t := by
  induction payloads generalizing s with
  | nil => exact ⟨s, .refl, delivered_nil hbuf ((emitReady_iff s).1 hs.emits).1⟩
  | cons p ps ih =>
    have hframe : s.buf ++ frameBytes s.params.magic p = frameBytes s.params.magic p := by simp [hbuf]
    have hone := delivered_one hframe
    obtain ⟨t, hrun, ht⟩ := ih (hs.of_delivered hone) hone.buf fun q hq => by
      rw [hone.maxPayload]
      exact hle q (List.mem_cons_of_mem _ hq)
    rw [hone.params] at hrun
    refine ⟨t, ?_, hone.cons ht⟩
    rw [List.flatMap_cons]
    exact (dataRun_delivered hs (hle p List.mem_cons_self) hframe _).trans hrun

/-- Settles O30: the frames are delivered one by one, and every other run that settles ends alike. -/
theorem validFramesAreAllDelivered : Obligations.ValidFramesAreAllDelivered := by
  unfold Obligations.ValidFramesAreAllDelivered
  intro s payloads hs hceil hle
  have hempty : s.buf = [] := hs.1
  obtain ⟨t, hrun, h⟩ := dataRun_frames (ready_of_boundary hs hceil) hempty hle
  have hend : SettlesAt s (payloads.flatMap (frameBytes s.params.magic)) t :=
    ⟨hrun, settled_of_empty h.buf h.xfBusy⟩
  refine ⟨t, hend, fun t' ht' => scheduleDoesNotMatter s t' t _ ht' hend, h.buf, h.xfBusy, h.headPos,
    h.framesOk, h.spectra, h.resyncDrops, h.lenRejects, fun hnil => ?_, fun p hp => ?_, h.capLog⟩
  · rw [h.pub, hnil]
    rfl
  · rw [h.pub, State.pubAfter, hp]

/-! ### Garbage (R121) -/

/-- The first four bytes of BUF are the wire bytes of its magic candidate. -/
theorem take_four_eq_u32Bytes {buf : List Byte} (h : 4 ≤ buf.length) :
    buf.take 4 = u32Bytes (u32le buf 0) := by
  obtain ⟨a, b, c, d, l, rfl⟩ : ∃ a b c d l, buf = a :: b :: c :: d :: l := by
    match buf, h with
    | a :: b :: c :: d :: l, _ => exact ⟨a, b, c, d, l, rfl⟩
  have hbytes : u32le (a :: b :: c :: d :: l) 0 = d ++ c ++ b ++ a := rfl
  have above {n : Nat} (x : BitVec n) (y : Byte) (k : Nat) :
      (x ++ y).extractLsb' (8 + k) 8 = x.extractLsb' k 8 := by
    rw [BitVec.extractLsb'_append_eq_of_le (by omega), Nat.add_sub_cancel_left]
  have h0 : (d ++ c ++ b ++ a).extractLsb' 0 8 = a := BitVec.extractLsb'_append_eq_right
  have h1 : (d ++ c ++ b ++ a).extractLsb' 8 8 = b :=
    (above _ a 0).trans BitVec.extractLsb'_append_eq_right
  have h2 : (d ++ c ++ b ++ a).extractLsb' 16 8 = c :=
    (above _ a 8).trans ((above _ b 0).trans BitVec.extractLsb'_append_eq_right)
  have h3 : (d ++ c ++ b ++ a).extractLsb' 24 8 = d :=
    (above _ a 16).trans ((above _ b 8).trans BitVec.extractLsb'_append_eq_left)
  rw [hbytes, u32Bytes, h0, h1, h2, h3]
  rfl

theorem FreeOfMagic.tail {magic : Word} {x : Byte} {g : List Byte} (h : FreeOfMagic magic (x :: g)) :
    FreeOfMagic magic g := fun p hp => h (p + 1) (by rw [List.length_cons]; omega)

/-- At no place of the garbage does MAGIC begin, not even where it runs into the frame's own magic. -/
theorem take_four_ne_magic {magic : Word} {g : List Byte} (hne : g ≠ []) (hfree : FreeOfMagic magic g)
    (hborder : Borderless magic) (tail : List Byte) :
    (g ++ (u32Bytes magic ++ tail)).take 4 ≠ u32Bytes magic := by
  have hpos : 0 < g.length := List.length_pos_iff.2 hne
  by_cases hlong : 4 ≤ g.length
  · rw [List.take_append_of_le_length hlong]
    exact hfree 0 (by omega)
  · intro heq
    have hmem : 4 - g.length ∈ [1, 2, 3] := by
      simp
      omega
    refine hborder _ hmem ?_
    have hlen : 4 - g.length ≤ (u32Bytes magic).length := by
      simp [u32Bytes]
    have hdrop := congrArg (List.drop g.length) heq
    rw [List.drop_take, List.drop_left, List.take_append_of_le_length hlen] at hdrop
    rw [hdrop, Nat.sub_sub_self (by omega)]

/-- `s` after `n` bytes of garbage were dropped one by one, with what is buffered then. -/
def State.skipped (s : State) (n : Nat) (buf : List Byte) (bytesIn : Word) (events : BitVec 5) : State :=
  { s with
    buf := buf
    headPos := s.headPos + n
    cnt := { s.cnt with bytesIn := bytesIn, resyncDrops := s.cnt.resyncDrops + BitVec.ofNat 32 n }
    events := events }

theorem skipped_skipped (s : State) (n : Nat) (buf buf' : List Byte) (bytesIn bytesIn' : Word)
    (events events' : BitVec 5) : (s.skipped 1 buf bytesIn events).skipped n buf' bytesIn' events' =
      s.skipped (n + 1) buf' bytesIn' events' := by
  simp [State.skipped, add_one_add_ofNat, Nat.add_assoc, Nat.add_comm 1]

/-- Garbage goes one byte at a time: eight bytes are buffered, no MAGIC stands at their head, and the
first is dropped. -/
theorem dataRun_skipped {garbage rest : List Byte} (hopen : s.ingressOpen = true)
    (hshort : s.buf.length ≤ 8)
    (hstream : s.buf ++ rest = garbage ++ frameBytes s.params.magic payload)
    (hfree : FreeOfMagic s.params.magic garbage) (hborder : Borderless s.params.magic) :
    ∃ buf bytesIn events rest', DataRun (s, rest) (s.skipped garbage.length buf bytesIn events, rest') ∧
      buf ++ rest' = frameBytes s.params.magic payload := by
  induction garbage generalizing s rest with
  | nil =>
    refine ⟨s.buf, s.cnt.bytesIn, s.events, rest, ?_, hstream⟩
    have hzero : s.skipped 0 s.buf s.cnt.bytesIn s.events = s := by simp [State.skipped]
    rw [List.length_nil, hzero]
    exact .refl
  | cons x g ih =>
    obtain ⟨more, rest', rfl, hfull⟩ : ∃ more rest', rest = more ++ rest' ∧ (s.buf ++ more).length = 8 := by
      have hlen := congrArg List.length hstream
      simp only [List.length_append, List.length_cons, frameBytes_length] at hlen
      refine ⟨rest.take (8 - s.buf.length), rest.drop (8 - s.buf.length), ?_, ?_⟩
      · rw [List.take_append_drop]
      · rw [List.length_append, List.length_take]
        omega
    rw [← List.append_assoc] at hstream
    have hroom : s.buf.length + more.length ≤ s.params.bufCap := by
      rw [← List.length_append, hfull]
      exact Nat.le_add_right 8 _
    have hmagic : u32le (s.buf ++ more) 0 ≠ s.params.magic := by
      intro heq
      have hhead := take_four_eq_u32Bytes (buf := s.buf ++ more) (by omega)
      rw [heq, ← List.take_append_of_le_length (l₂ := rest') (by omega), hstream, frameBytes,
        List.append_assoc] at hhead
      exact take_four_ne_magic (List.cons_ne_nil x g) hfree hborder _ hhead
    have hd : (s.received more).decision = .drop1 := frDecide_drop1_iff.2 ⟨hfull.ge, hmagic⟩
    have hdrop := exec_decision_drop1 hd
    have hskip : ((s.received more).dropHead 1).raise .resync = s.skipped 1 ((s.buf ++ more).drop 1)
      (s.received more).cnt.bytesIn (s.events ||| Event.resync.bit) := rfl
    rw [hskip] at hdrop
    have hmove := (dataRun_received hopen hroom rest').tail
      (.frm ((frmEnabled_iff _).2 (.inl hd)) hdrop)
    have hnext : (s.buf ++ more).drop 1 ++ rest' = g ++ frameBytes s.params.magic payload := by
      rw [← List.drop_append_of_le_length (by omega), hstream]
      rfl
    have hshort' : ((s.buf ++ more).drop 1).length ≤ 8 := by
      rw [List.length_drop]
      omega
    obtain ⟨buf, bytesIn, events, rest'', hrun, hframe⟩ :=
      ih (s := s.skipped 1 ((s.buf ++ more).drop 1) (s.received more).cnt.bytesIn
        (s.events ||| Event.resync.bit)) hopen hshort' hnext hfree.tail hborder
    rw [skipped_skipped] at hrun
    exact ⟨buf, bytesIn, events, rest'', hmove.trans hrun, hframe⟩

/-- Settles O31: the garbage goes byte by byte, then the frame is delivered, and every other run that
settles ends alike. -/
theorem garbageIsDroppedExactly : Obligations.GarbageIsDroppedExactly := by
  unfold Obligations.GarbageIsDroppedExactly
  intro s garbage payload hs hceil hle hfree hborder
  have hready := ready_of_boundary hs hceil
  have hempty : s.buf = [] := hs.1
  obtain ⟨buf, bytesIn, events, rest, hskip, hframe⟩ := dataRun_skipped (rest := garbage ++ _)
    hready.isOpen (by simp [hempty]) (by rw [hempty]; rfl) hfree hborder
  have h := delivered_one (s := s.skipped garbage.length buf bytesIn events) hframe
  have hdeliver := dataRun_delivered (s := s.skipped garbage.length buf bytesIn events)
    ⟨hready.isOpen, hready.emits, hceil⟩ hle hframe []
  rw [List.append_nil] at hdeliver
  have hend : SettlesAt s (garbage ++ frameBytes s.params.magic payload) _ :=
    ⟨hskip.trans hdeliver, settled_of_empty h.buf h.xfBusy⟩
  refine ⟨_, hend, fun t' ht' => scheduleDoesNotMatter s t' _ _ ht' hend, h.buf, ?_, h.resyncDrops,
    h.lenRejects, h.framesOk, h.pub⟩
  rw [h.headPos, List.flatMap_singleton, frameBytes_length]
  simp [State.skipped, Nat.add_assoc]

end Sys2Proof.Machine
